-- ==== Sys2Proof/Word.lean ====
section
/-! DEFINITION. The byte, the checksum table's type and the value an outside source hands to the engine
(00_scope R8, R11, R15). The bit-field and byte-order helpers stand in `Machine/Operands.lean`. -/

namespace Sys2Proof

/-- A byte, a value in 0..255 whose bit 0 is the least significant (00_scope R11). -/
abbrev Byte := BitVec 8

/-- The checksum table: 256 entries of 8 bits, indexed 0..255 (00_scope R9, 10_state R32). -/
abbrev CrcTable := Vector Byte 256

/-- A value given to the engine by the configuration source (CFG_ADDRESS, 10_state R27) or by a
configuration-change notification (a USER operand, 43_polling_fsm R188): an integer of any size, or anything else.
The spec refuses anything else whatever it is (60_exceptions R230), so the second case carries no data. -/
inductive HostValue where
  /-- An integer. -/
  | integer (v : Int)
  /-- Any value that is not an integer. -/
  | notInteger
  deriving DecidableEq, Repr, Inhabited

end Sys2Proof
end

