-- ==== Sys2Proof/Config.lean ====
section
/-! DEFINITION. What the implementation fixes and the spec leaves open: the configuration registers
(10_state R27 to R31) and the contents of the checksum table (00_scope R9), as opaque constants with no body. -/

namespace Sys2Proof

/-- The configuration registers, read-only to the engine (10_state R27 to R31). -/
structure CfgRegs where
  /-- CFG_ADDRESS: legal values are the integers 0..255 (R27). -/
  address : HostValue
  /-- CFG_PORT: an opaque port identifier, in the configuration source's own spelling (R28). -/
  port : String
  /-- CFG_BAUD: an opaque baud-rate value, in the configuration source's own spelling (R29). -/
  baud : String
  /-- CFG_POLL_MS: the poll timer's period when it is set (R30). -/
  pollMs : Option Nat
  /-- POLL_DEFAULT_MS: the period when CFG_POLL_MS is unset (R31). -/
  pollDefaultMs : Nat
  deriving DecidableEq, Repr, Inhabited

namespace Config

/-- CRC_TABLE, a named parameter: the source gives none of its entries (00_scope R9, 92_eei_decisions D2, log 1).
Safe: nothing can be proved of an entry. -/
opaque crcTable : CrcTable

/-- CFG_ADDRESS as configured (10_state R27, log 2). -/
opaque cfgAddress : HostValue

/-- CFG_PORT as configured (10_state R28, log 2). -/
opaque cfgPort : String

/-- CFG_BAUD as configured (10_state R29, log 2). -/
opaque cfgBaud : String

/-- CFG_POLL_MS as configured (10_state R30, log 2). -/
opaque cfgPollMs : Option Nat

/-- POLL_DEFAULT_MS, OPEN in the spec (10_state R31, 92_eei_decisions D3, log 2). -/
opaque pollDefaultMs : Nat

/-- The configuration registers as the configuration source sets them (60_exceptions R240). -/
def registers : CfgRegs :=
  { address := cfgAddress, port := cfgPort, baud := cfgBaud, pollMs := cfgPollMs, pollDefaultMs := pollDefaultMs }

end Config

end Sys2Proof
end

