-- ==== Sys2Proof/Machine/Checksum.lean ====
section
/-! DEFINITION. The Checksum Unit (40_checksum): CRC_STEP, CRC8, FRAME_OK and APPEND_CRC, each a function of the table. -/

namespace Sys2Proof.Machine

/-- CRC_STEP(c, b): one table entry, at the index `c xor b` (40_checksum R100). -/
def crcStep (T : CrcTable) (c b : Byte) : Byte :=
  T.get (c ^^^ b).toFin

/-- CRC8(bs): the steps over the bytes in order of increasing offset, from `0x00` (40_checksum R101). -/
def crc8 (T : CrcTable) (bs : List Byte) : Byte :=
  bs.foldl (crcStep T) 0x00

/-- FRAME_OK(f): the last byte is the checksum of all the bytes before it (40_checksum R103). An empty list has no last
byte and is no frame of the rule; it answers false. -/
def frameOk (T : CrcTable) (f : List Byte) : Bool :=
  f.getLast? == some (crc8 T f.dropLast)

/-- APPEND_CRC(body) (40_checksum R104). -/
def appendCrc (T : CrcTable) (body : List Byte) : List Byte :=
  body ++ [crc8 T body]

end Sys2Proof.Machine
end

