-- ==== Sys2Proof/Machine/Operands.lean ====
section
/-! DEFINITION. The operand forms: reads of RXBUF and writes of TXBUF (00_scope R13), byte order (20_memory R53), the
field extractors (41_frame_codec R125 to R130), and splitting a wire integer into its bytes. -/

namespace Sys2Proof.Machine

/-- The byte of a frame at an offset. Every caller has checked that the offset is inside the frame (20_memory R51);
the value past the end is never used. -/
def byteAt (f : List Byte) (off : Nat) : Byte :=
  f.getD off 0

/-- The n bytes at offset `off` all lie in the frame: the condition under which MemRead is defined (00_scope R13). -/
def inFrame (f : List Byte) (off n : Nat) : Bool :=
  off + n ≤ f.length

/-- MemRead(off, n): the n-byte little-endian unsigned value at `off` (00_scope R13, 20_memory R53). -/
def memRead (f : List Byte) (off : Nat) : Nat → Nat
  | 0 => 0
  | n + 1 => (byteAt f off).toNat + 256 * memRead f (off + 1) n

/-- MemWrite(off, n, v): the n low bytes of `v`, the least significant at `off` (00_scope R13). -/
def memWrite (f : List Byte) (off : Nat) : Nat → Nat → List Byte
  | 0, _ => f
  | n + 1, v => memWrite (f.set off (BitVec.ofNat 8 v)) (off + 1) n (v / 256)

/-- sext_N(v): `v - 2^N` if bit N-1 of `v` is set, else `v` (00_scope R11). -/
def sext (n v : Nat) : Int :=
  if v.testBit (n - 1) then (v : Int) - 2 ^ n else v

/-- TEMP_SM(b): bit 7 is the sign, bits 6..0 the magnitude (41_frame_codec R125). -/
def tempSm (b : Byte) : Int :=
  let mag : Int := (b &&& 0x7F).toNat
  if b.getLsbD 7 then -mag else mag

/-- U16LE(off) (41_frame_codec R126). -/
def u16le (f : List Byte) (off : Nat) : Nat :=
  memRead f off 2

/-- I16LE(off) (41_frame_codec R127). -/
def i16le (f : List Byte) (off : Nat) : Int :=
  sext 16 (memRead f off 2)

/-- I8(off) (41_frame_codec R128). -/
def i8 (f : List Byte) (off : Nat) : Int :=
  sext 8 (memRead f off 1)

/-- U24LE(off), zero-extended (41_frame_codec R129). -/
def u24le (f : List Byte) (off : Nat) : Nat :=
  memRead f off 3

/-- TEXT(a, b): the raw bytes at offsets a to b-1 (41_frame_codec R130, 00_scope R12). -/
def text (f : List Byte) (a b : Nat) : List Byte :=
  (f.take b).drop a

/-- The two bytes of a 16-bit wire integer, the less significant first (20_memory R53). -/
def le16 (v : BitVec 16) : List Byte :=
  [v.extractLsb' 0 8, v.extractLsb' 8 8]

/-- The three bytes of a 24-bit wire integer, the least significant first (20_memory R53). -/
def le24 (v : BitVec 24) : List Byte :=
  [v.extractLsb' 0 8, v.extractLsb' 8 8, v.extractLsb' 16 8]

/-- The 16-bit wire integer at an offset, as its bits. -/
def wire16 (f : List Byte) (off : Nat) : BitVec 16 :=
  byteAt f (off + 1) ++ byteAt f off

/-- The 24-bit wire integer at an offset, as its bits. -/
def wire24 (f : List Byte) (off : Nat) : BitVec 24 :=
  byteAt f (off + 2) ++ byteAt f (off + 1) ++ byteAt f off

end Sys2Proof.Machine
end

