-- ==== Sys2Proof/Syntax.lean ====
section
/-! DEFINITION. The 31 rows of the opcode table as one inductive, the frame layouts they carry, and the encoded form in
which the environment delivers them (30_encoding). -/

namespace Sys2Proof

/-- The three encoding spaces of the opcode table: the TX port, the RX port, and the tag space of events and datapath
operations. The direction tells the outbound `0x06`/`0x10` rows from the inbound ones (30_encoding R80). -/
inductive Direction where
  | outbound
  | inbound
  | event
  deriving DecidableEq, Repr

/-- One encoded row: its direction and its bytes, offset 0 first (00_scope R12). -/
structure Packet where
  direction : Direction
  bytes : List Byte
  deriving DecidableEq, Repr

/-- The draws of one step: the transport's answers, which the environment chooses with no law (00_scope R14). -/
structure Draws where
  /-- The answer of `transport.open`. -/
  openOk : Bool
  /-- The answer of `transport.write`. -/
  txOk : Bool
  deriving DecidableEq, Repr

/-- One input as the environment holds it until the engine handles it: the encoded row and the draws of the step that
will handle it (43_polling_fsm R180, 60_exceptions R235). -/
structure Delivery where
  packet : Packet
  draws : Draws
  deriving DecidableEq, Repr

/-- Why a packet is no row of the opcode table. The engine's environment delivers no such packet; the step refuses it
by this name (log 5, log 6). Safe: nothing is claimed of it. -/
inductive DecodeError where
  /-- An event packet with no tag byte. -/
  | emptyPacket
  /-- A tag that 30_encoding R83 does not list. -/
  | unknownTag (tag : Byte)
  /-- The operand bytes after a tag end too early. -/
  | truncatedOperand
  /-- Bytes are left after the last operand. -/
  | trailingBytes
  /-- The byte that says whether an optional operand is present is neither 0 nor 1. -/
  | badOptionByte (b : Byte)
  /-- The byte that says whether a USER operand is an integer is neither 0 nor 1. -/
  | badValueKind (b : Byte)
  /-- A command frame does not begin with the command lead byte `0x31` (30_encoding R71, R72). -/
  | badCommandLead
  /-- A command frame with an opcode the engine never sends (30_encoding R77, R81). -/
  | unknownOpcode (op : Byte)
  /-- A command frame that is not of its format's length (30_encoding R71, R72). -/
  | badCommandLength (n : Nat)
  deriving DecidableEq, Repr

/-- Format RSP9, the reading response, with the bytes a longer frame has between its last field and its checksum
(30_encoding R73, 41_frame_codec R144). -/
structure ReadingFrame where
  /-- Offset 0, `0x3E` as the device sends it; not checked (R79). -/
  lead : Byte
  /-- Offset 1; not checked (R79). -/
  address : Byte
  /-- Offset 3, sign and magnitude. -/
  temperature : Byte
  /-- Offsets 4..5, little-endian. -/
  rawLevel : BitVec 16
  /-- Offsets 6..7, little-endian. -/
  frequencyValue : BitVec 16
  /-- Ignored bytes of a longer frame. -/
  extra : List Byte
  /-- The last byte. -/
  checksum : Byte
  deriving DecidableEq, Repr

/-- Format RSP44, the device-info response, with the ignored bytes of a longer frame (30_encoding R74,
41_frame_codec R144). -/
structure InfoFrame where
  /-- Offset 0; not checked (R79). -/
  lead : Byte
  /-- Offset 1; not checked (R79). -/
  address : Byte
  /-- Offsets 3..19, 16 raw bytes. -/
  model : List Byte
  /-- Offsets 19..30, 11 raw bytes. -/
  firmwareVersion : List Byte
  /-- Offset 30. -/
  mode : Byte
  /-- Offset 31. -/
  interval : Byte
  /-- Offset 32. -/
  filterDepth : Byte
  /-- Offsets 33..35, little-endian. -/
  calibrationMin : BitVec 16
  /-- Offsets 35..37, little-endian. -/
  calibrationMax : BitVec 16
  /-- Offsets 37..40, little-endian. -/
  counter1 : BitVec 24
  /-- Offsets 40..43, little-endian. -/
  counter2 : BitVec 24
  /-- Ignored bytes of a longer frame. -/
  extra : List Byte
  /-- The last byte. -/
  checksum : Byte
  deriving DecidableEq, Repr

/-- Format RSPANY: an inbound frame of length at least 4 of any other type (30_encoding R75). -/
structure OtherFrame where
  lead : Byte
  address : Byte
  /-- Offset 2, neither `0x06` nor `0x10`. -/
  kind : Byte
  payload : List Byte
  checksum : Byte
  deriving DecidableEq, Repr

/-- The rows of the opcode table. A command frame's address and checksum bytes are no operands: the engine fills them
from `addr` and the checksum table (30_encoding R71, R72, log 7). -/
inductive Instr where
  /-- READ_LEVEL, command `0x06`, no parameter (30_encoding R77). -/
  | readLevel
  /-- READ_INFO, command `0x10`, no parameter (R77). -/
  | readInfo
  /-- REQ_PERIODIC, command `0x07`, no parameter (R77). -/
  | reqPeriodic
  /-- SET_MODE, command `0x17` with the mode byte (R77). -/
  | setMode (p : Byte)
  /-- SET_INTERVAL, command `0x13` with the interval byte (R77). -/
  | setInterval (p : Byte)
  /-- SET_FILTER, command `0x0E` with the filter depth byte (R77). -/
  | setFilter (p : Byte)
  /-- RSP_READING, response type `0x06` (R78). -/
  | rspReading (f : ReadingFrame)
  /-- RSP_INFO, response type `0x10` (R78). -/
  | rspInfo (f : InfoFrame)
  /-- RSP_OTHER, any other response type (R78). -/
  | rspOther (f : OtherFrame)
  /-- CONNECT, event tag `0x01` (R83). -/
  | connect
  /-- TICK, event tag `0x02`. -/
  | tick
  /-- USER_PERIODIC, event tag `0x03`. -/
  | userPeriodic
  /-- USER_MODE v, event tag `0x04`. -/
  | userMode (v : HostValue)
  /-- USER_INTERVAL v, event tag `0x05`. -/
  | userInterval (v : HostValue)
  /-- USER_FILTER v, event tag `0x06`. -/
  | userFilter (v : HostValue)
  /-- RX f, event tag `0x07`. -/
  | rx (f : List Byte)
  /-- CLOSE, event tag `0x08`. -/
  | close
  /-- CRC_STEP(c, b), operation tag `0x10`. -/
  | crcStep (c b : Byte)
  /-- CRC8(bs), operation tag `0x11`. -/
  | crc8 (bs : List Byte)
  /-- ENCODE(addr, op, param), operation tag `0x12`. -/
  | encode (addr op : Byte) (param : Option Byte)
  /-- DECODE(s, f), operation tag `0x13`; `s` is the state the step starts from. -/
  | decode (f : List Byte)
  /-- SCALE(x, inMin, inMax, outMin, outMax), operation tag `0x14`. -/
  | scale (x inMin inMax outMin outMax : Rat)
  /-- ROUND2C(q), operation tag `0x15`. -/
  | round2c (q : Rat)
  /-- FUEL(raw), operation tag `0x16`. -/
  | fuel (raw : BitVec 16)
  /-- CLAMP(x, lo, hi), operation tag `0x17`. -/
  | clamp (x lo hi : Rat)
  /-- TEMP_SM(b), operation tag `0x18`. -/
  | tempSm (b : Byte)
  /-- U16LE at an offset of a frame, operation tag `0x19`. -/
  | u16le (f : List Byte) (off : Nat)
  /-- I16LE at an offset of a frame, operation tag `0x1A`. -/
  | i16le (f : List Byte) (off : Nat)
  /-- I8 at an offset of a frame, operation tag `0x1B`. -/
  | i8 (f : List Byte) (off : Nat)
  /-- U24LE at an offset of a frame, operation tag `0x1C`. -/
  | u24le (f : List Byte) (off : Nat)
  /-- TEXT(a, b) of a frame, operation tag `0x1D`. -/
  | text (f : List Byte) (a b : Nat)
  deriving DecidableEq, Repr

end Sys2Proof
end

