-- ==== Sys2Proof/WellFormed.lean ====
section
/-! DEFINITION. Which terms of `Instr` fit their format's layout, and which also have every operand in the range the
rule of the row gives it. -/

namespace Sys2Proof

namespace HostValue

/-- The value is an integer (60_exceptions R230). -/
def isInteger : HostValue → Bool
  | .integer _ => true
  | .notInteger => false

end HostValue

namespace Instr

/-- The operands fit the layout of the row's format: the text fields of RSP44 have their widths (30_encoding R74), and
RSPANY is of no type that has its own format (30_encoding R75). Every other row's operands fit by their types. -/
def fitsLayout : Instr → Bool
  | .rspInfo f => f.model.length == 16 && f.firmwareVersion.length == 11
  | .rspOther f => f.kind != 0x06 && f.kind != 0x10
  | .readLevel | .readInfo | .reqPeriodic | .setMode _ | .setInterval _ | .setFilter _ | .rspReading _ => true
  | .connect | .tick | .userPeriodic | .userMode _ | .userInterval _ | .userFilter _ | .rx _ | .close => true
  | .crcStep _ _ | .crc8 _ | .encode _ _ _ | .decode _ | .scale _ _ _ _ _ | .round2c _ | .fuel _ | .clamp _ _ _ => true
  | .tempSm _ | .u16le _ _ | .i16le _ _ | .i8 _ _ | .u24le _ _ | .text _ _ _ => true

/-- Every operand is in the range its rule gives it: the clamped parameter of a command (30_encoding R77), an integer
USER operand (43_polling_fsm R188), unequal input bounds of SCALE (42_scaling R162), offsets inside the frame
(41_frame_codec R126 to R130). -/
def operandsLegal : Instr → Bool
  | .setMode p => p ≤ 2
  | .setFilter p => p ≤ 20
  | .userMode v | .userInterval v | .userFilter v => v.isInteger
  | .scale _ inMin inMax _ _ => inMax != inMin
  | .u16le f off | .i16le f off => Machine.inFrame f off 2
  | .i8 f off => Machine.inFrame f off 1
  | .u24le f off => Machine.inFrame f off 3
  | .text f _ b => b ≤ f.length
  | .readLevel | .readInfo | .reqPeriodic | .setInterval _ | .rspReading _ | .rspInfo _ | .rspOther _ => true
  | .connect | .tick | .userPeriodic | .rx _ | .close | .crcStep _ _ | .crc8 _ | .encode _ _ _ | .decode _ => true
  | .round2c _ | .fuel _ | .clamp _ _ _ | .tempSm _ => true

/-- A well-formed row: its operands fit the layout and are legal. -/
def wellFormed (i : Instr) : Bool :=
  i.fitsLayout && i.operandsLegal

end Instr

end Sys2Proof
end

