-- ==== Sys2Proof/Decode.lean ====
section
/-! DEFINITION. The decoder of packets, total and rejecting by name, then the encoder, both written from 30_encoding
(frames R71 to R75, tags R83). The spec gives tags no operand bytes; the layout of the bytes after a tag is the model's
(DESIGN CHOICE, log 5). -/

namespace Sys2Proof

/-! ### Operand readers: the value at the front of the bytes, and the bytes after it -/

/-- One byte. -/
def readByte : List Byte → Except DecodeError (Byte × List Byte)
  | [] => .error .truncatedOperand
  | b :: bs => .ok (b, bs)

/-- A natural number in groups of seven bits, the least significant group first; bit 7 says that a group follows. -/
def readNat : List Byte → Except DecodeError (Nat × List Byte)
  | [] => .error .truncatedOperand
  | b :: bs =>
    if b.toNat < 128 then .ok (b.toNat, bs)
    else
      match readNat bs with
      | .ok (n, rest) => .ok (b.toNat - 128 + 128 * n, rest)
      | .error e => .error e

/-- The integer a natural number stands for: even numbers the non-negative ones, odd numbers the negative ones. -/
def unzigzag (n : Nat) : Int :=
  if n % 2 = 0 then ((n / 2 : Nat) : Int) else Int.negSucc (n / 2)

/-- An integer of any size. -/
def readInt (bs : List Byte) : Except DecodeError (Int × List Byte) := do
  let (n, rest) ← readNat bs
  .ok (unzigzag n, rest)

/-- A rational: its numerator, then its denominator less one. -/
def readRat (bs : List Byte) : Except DecodeError (Rat × List Byte) := do
  let (num, rest) ← readInt bs
  let (den, rest) ← readNat rest
  .ok (mkRat num (den + 1), rest)

/-- An optional byte: 0 for none, 1 and the byte for some. -/
def readOption : List Byte → Except DecodeError (Option Byte × List Byte)
  | [] => .error .truncatedOperand
  | b :: bs =>
    if b = 0 then .ok (none, bs)
    else if b = 1 then do
      let (p, rest) ← readByte bs
      .ok (some p, rest)
    else .error (.badOptionByte b)

/-- A USER operand: 0 and an integer, or 1 for a value that is no integer. -/
def readValue : List Byte → Except DecodeError (HostValue × List Byte)
  | [] => .error .truncatedOperand
  | b :: bs =>
    if b = 0 then do
      let (v, rest) ← readInt bs
      .ok (.integer v, rest)
    else if b = 1 then .ok (.notInteger, bs)
    else .error (.badValueKind b)

/-- The row, if no byte is left. -/
def finish (i : Instr) : List Byte → Except DecodeError Instr
  | [] => .ok i
  | _ :: _ => .error .trailingBytes

/-! ### The decoder -/

/-- Commands: CMD4 and CMD5 by the opcode at offset 2; the address and the checksum are not looked at, since the table's
mask leaves the address free and the engine fills both (30_encoding R71, R72, R77, R80; log 7). -/
def decodeOutbound : List Byte → Except DecodeError Instr
  | lead :: _addr :: op :: rest =>
    if lead ≠ 0x31 then .error .badCommandLead
    else
      match op.toNat, rest with
      | 0x06, [_] => .ok .readLevel
      | 0x10, [_] => .ok .readInfo
      | 0x07, [_] => .ok .reqPeriodic
      | 0x17, [p, _] => .ok (.setMode p)
      | 0x13, [p, _] => .ok (.setInterval p)
      | 0x0E, [p, _] => .ok (.setFilter p)
      | n, rest =>
        if n = 0x06 ∨ n = 0x10 ∨ n = 0x07 ∨ n = 0x17 ∨ n = 0x13 ∨ n = 0x0E
        then .error (.badCommandLength (3 + rest.length))
        else .error (.unknownOpcode op)
  | short => .error (.badCommandLength short.length)

/-- The RSP9 fields of a frame of at least 9 bytes (30_encoding R73; longer frames 41_frame_codec R144). -/
def readingFrameOf (f : List Byte) : ReadingFrame :=
  { lead := Machine.byteAt f 0
    address := Machine.byteAt f 1
    temperature := Machine.byteAt f 3
    rawLevel := Machine.wire16 f 4
    frequencyValue := Machine.wire16 f 6
    extra := Machine.text f 8 (f.length - 1)
    checksum := Machine.byteAt f (f.length - 1) }

/-- The RSP44 fields of a frame of at least 44 bytes (30_encoding R74). -/
def infoFrameOf (f : List Byte) : InfoFrame :=
  { lead := Machine.byteAt f 0
    address := Machine.byteAt f 1
    model := Machine.text f 3 19
    firmwareVersion := Machine.text f 19 30
    mode := Machine.byteAt f 30
    interval := Machine.byteAt f 31
    filterDepth := Machine.byteAt f 32
    calibrationMin := Machine.wire16 f 33
    calibrationMax := Machine.wire16 f 35
    counter1 := Machine.wire24 f 37
    counter2 := Machine.wire24 f 40
    extra := Machine.text f 43 (f.length - 1)
    checksum := Machine.byteAt f (f.length - 1) }

/-- The parts of any other frame of at least 4 bytes (30_encoding R75). -/
def otherFrameOf (f : List Byte) : OtherFrame :=
  { lead := Machine.byteAt f 0
    address := Machine.byteAt f 1
    kind := Machine.byteAt f 2
    payload := Machine.text f 3 (f.length - 1)
    checksum := Machine.byteAt f (f.length - 1) }

/-- Responses: by the type byte at offset 2, RSP_READING and RSP_INFO before RSP_OTHER (30_encoding R78, R80). A frame
too short for any row's format is still a frame that arrives: it is RX of that frame (43_polling_fsm R194). -/
def decodeInbound (f : List Byte) : Instr :=
  if f.length < 4 then .rx f
  else if Machine.byteAt f 2 = 0x06 then
    if f.length < 9 then .rx f else .rspReading (readingFrameOf f)
  else if Machine.byteAt f 2 = 0x10 then
    if f.length < 44 then .rx f else .rspInfo (infoFrameOf f)
  else .rspOther (otherFrameOf f)

/-- Events and datapath operations, by their tag (30_encoding R83), then their operands (log 5). -/
def decodeEvent : List Byte → Except DecodeError Instr
  | [] => .error .emptyPacket
  | tag :: bs =>
    match tag.toNat with
    | 0x01 => finish .connect bs
    | 0x02 => finish .tick bs
    | 0x03 => finish .userPeriodic bs
    | 0x04 => do
      let (v, rest) ← readValue bs
      finish (.userMode v) rest
    | 0x05 => do
      let (v, rest) ← readValue bs
      finish (.userInterval v) rest
    | 0x06 => do
      let (v, rest) ← readValue bs
      finish (.userFilter v) rest
    | 0x07 => .ok (.rx bs)
    | 0x08 => finish .close bs
    | 0x10 => do
      let (c, rest) ← readByte bs
      let (b, rest) ← readByte rest
      finish (.crcStep c b) rest
    | 0x11 => .ok (.crc8 bs)
    | 0x12 => do
      let (addr, rest) ← readByte bs
      let (op, rest) ← readByte rest
      let (param, rest) ← readOption rest
      finish (.encode addr op param) rest
    | 0x13 => .ok (.decode bs)
    | 0x14 => do
      let (x, rest) ← readRat bs
      let (inMin, rest) ← readRat rest
      let (inMax, rest) ← readRat rest
      let (outMin, rest) ← readRat rest
      let (outMax, rest) ← readRat rest
      finish (.scale x inMin inMax outMin outMax) rest
    | 0x15 => do
      let (q, rest) ← readRat bs
      finish (.round2c q) rest
    | 0x16 => do
      let (lo, rest) ← readByte bs
      let (hi, rest) ← readByte rest
      finish (.fuel (hi ++ lo)) rest
    | 0x17 => do
      let (x, rest) ← readRat bs
      let (lo, rest) ← readRat rest
      let (hi, rest) ← readRat rest
      finish (.clamp x lo hi) rest
    | 0x18 => do
      let (b, rest) ← readByte bs
      finish (.tempSm b) rest
    | 0x19 => do
      let (off, f) ← readNat bs
      .ok (.u16le f off)
    | 0x1A => do
      let (off, f) ← readNat bs
      .ok (.i16le f off)
    | 0x1B => do
      let (off, f) ← readNat bs
      .ok (.i8 f off)
    | 0x1C => do
      let (off, f) ← readNat bs
      .ok (.u24le f off)
    | 0x1D => do
      let (a, rest) ← readNat bs
      let (b, f) ← readNat rest
      .ok (.text f a b)
    | _ => .error (.unknownTag tag)

/-- The row a packet is, or the name of the reason it is none. -/
def decode (p : Packet) : Except DecodeError Instr :=
  match p.direction with
  | .outbound => decodeOutbound p.bytes
  | .inbound => .ok (decodeInbound p.bytes)
  | .event => decodeEvent p.bytes

/-! ### The encoder -/

/-- `writeNat` with `fuel` groups still allowed after the first. -/
def writeNatFuel : Nat → Nat → List Byte
  | 0, n => [BitVec.ofNat 8 n]
  | fuel + 1, n =>
    if n < 128 then [BitVec.ofNat 8 n] else BitVec.ofNat 8 (128 + n % 128) :: writeNatFuel fuel (n / 128)

/-- The bytes `readNat` reads back; `n` groups are more than enough. -/
def writeNat (n : Nat) : List Byte :=
  writeNatFuel n n

/-- The natural number that stands for an integer. -/
def zigzag : Int → Nat
  | .ofNat n => 2 * n
  | .negSucc n => 2 * n + 1

/-- The bytes of an integer. -/
def writeInt (v : Int) : List Byte :=
  writeNat (zigzag v)

/-- The bytes of a rational. -/
def writeRat (q : Rat) : List Byte :=
  writeInt q.num ++ writeNat (q.den - 1)

/-- The bytes of an optional byte. -/
def writeOption : Option Byte → List Byte
  | none => [0]
  | some p => [1, p]

/-- The bytes of a USER operand. -/
def writeValue : HostValue → List Byte
  | .integer v => 0 :: writeInt v
  | .notInteger => [1]

/-- Format CMD4 (30_encoding R71). -/
def cmd4Bytes (T : CrcTable) (addr op : Byte) : List Byte :=
  [0x31, addr, op, Machine.crc8 T [0x31, addr, op]]

/-- Format CMD5 (30_encoding R72). -/
def cmd5Bytes (T : CrcTable) (addr op p : Byte) : List Byte :=
  [0x31, addr, op, p, Machine.crc8 T [0x31, addr, op, p]]

/-- Format RSP9 (30_encoding R73). -/
def readingFrameBytes (f : ReadingFrame) : List Byte :=
  [f.lead, f.address, 0x06, f.temperature] ++ Machine.le16 f.rawLevel ++ Machine.le16 f.frequencyValue ++ f.extra
    ++ [f.checksum]

/-- Format RSP44 (30_encoding R74). -/
def infoFrameBytes (f : InfoFrame) : List Byte :=
  [f.lead, f.address, 0x10] ++ f.model ++ f.firmwareVersion ++ [f.mode, f.interval, f.filterDepth]
    ++ Machine.le16 f.calibrationMin ++ Machine.le16 f.calibrationMax ++ Machine.le24 f.counter1
    ++ Machine.le24 f.counter2 ++ f.extra ++ [f.checksum]

/-- Format RSPANY (30_encoding R75). -/
def otherFrameBytes (f : OtherFrame) : List Byte :=
  [f.lead, f.address, f.kind] ++ f.payload ++ [f.checksum]

/-- The packet of a row. A command's frame carries the latched address `addr` and the checksum by the table `T`, which
the engine fills in (30_encoding R71, R72); no other row's packet uses them. -/
def encode (T : CrcTable) (addr : Byte) : Instr → Packet
  | .readLevel => ⟨.outbound, cmd4Bytes T addr 0x06⟩
  | .readInfo => ⟨.outbound, cmd4Bytes T addr 0x10⟩
  | .reqPeriodic => ⟨.outbound, cmd4Bytes T addr 0x07⟩
  | .setMode p => ⟨.outbound, cmd5Bytes T addr 0x17 p⟩
  | .setInterval p => ⟨.outbound, cmd5Bytes T addr 0x13 p⟩
  | .setFilter p => ⟨.outbound, cmd5Bytes T addr 0x0E p⟩
  | .rspReading f => ⟨.inbound, readingFrameBytes f⟩
  | .rspInfo f => ⟨.inbound, infoFrameBytes f⟩
  | .rspOther f => ⟨.inbound, otherFrameBytes f⟩
  | .connect => ⟨.event, [0x01]⟩
  | .tick => ⟨.event, [0x02]⟩
  | .userPeriodic => ⟨.event, [0x03]⟩
  | .userMode v => ⟨.event, 0x04 :: writeValue v⟩
  | .userInterval v => ⟨.event, 0x05 :: writeValue v⟩
  | .userFilter v => ⟨.event, 0x06 :: writeValue v⟩
  | .rx f => ⟨.event, 0x07 :: f⟩
  | .close => ⟨.event, [0x08]⟩
  | .crcStep c b => ⟨.event, [0x10, c, b]⟩
  | .crc8 bs => ⟨.event, 0x11 :: bs⟩
  | .encode a op param => ⟨.event, 0x12 :: a :: op :: writeOption param⟩
  | .decode f => ⟨.event, 0x13 :: f⟩
  | .scale x inMin inMax outMin outMax =>
    ⟨.event, 0x14 :: (writeRat x ++ writeRat inMin ++ writeRat inMax ++ writeRat outMin ++ writeRat outMax)⟩
  | .round2c q => ⟨.event, 0x15 :: writeRat q⟩
  | .fuel raw => ⟨.event, 0x16 :: Machine.le16 raw⟩
  | .clamp x lo hi => ⟨.event, 0x17 :: (writeRat x ++ writeRat lo ++ writeRat hi)⟩
  | .tempSm b => ⟨.event, [0x18, b]⟩
  | .u16le f off => ⟨.event, 0x19 :: (writeNat off ++ f)⟩
  | .i16le f off => ⟨.event, 0x1A :: (writeNat off ++ f)⟩
  | .i8 f off => ⟨.event, 0x1B :: (writeNat off ++ f)⟩
  | .u24le f off => ⟨.event, 0x1C :: (writeNat off ++ f)⟩
  | .text f a b => ⟨.event, 0x1D :: (writeNat a ++ writeNat b ++ f)⟩

/-! ### The words of the opcode table -/

/-- How many zero operand bytes follow a tag whose operands are all zero: the row's fixed operands and, for an
extractor, the bytes of the field it reads (log 6). -/
def zeroOperandBytes (tag : Nat) : Nat :=
  match tag with
  | 0x04 | 0x05 | 0x06 => 2
  | 0x10 => 2
  | 0x12 => 3
  | 0x14 => 10
  | 0x15 => 2
  | 0x16 => 2
  | 0x17 => 6
  | 0x18 => 1
  | 0x19 | 0x1A => 3
  | 0x1B => 2
  | 0x1C => 4
  | 0x1D => 2
  | _ => 0

/-- The length of the format a command opcode has (30_encoding R77); none for an opcode that is no row. -/
def commandLength (op : Nat) : Option Nat :=
  match op with
  | 0x06 | 0x10 | 0x07 => some 4
  | 0x17 | 0x13 | 0x0E => some 5
  | _ => none

/-- The least length of the format a response type has (30_encoding R73 to R75). -/
def responseLength (kind : Nat) : Nat :=
  match kind with
  | 0x06 => 9
  | 0x10 => 44
  | _ => 4

/-- The bytes of a wire word of the opcode table: `(f[0] << 16) | (f[1] << 8) | f[2]` (30_encoding R80); bits above the
24, where a word has them, are the bytes after, from offset 3 on. -/
def wireWordBytes (nbits w : Nat) : List Byte :=
  [BitVec.ofNat 8 (w >>> 16), BitVec.ofNat 8 (w >>> 8), BitVec.ofNat 8 w]
    ++ (List.range ((nbits - 24 + 7) / 8)).map fun k => BitVec.ofNat 8 (w >>> (24 + 8 * k))

/-- Append zero bytes up to a length. -/
def padZeros (n : Nat) (bs : List Byte) : List Byte :=
  bs ++ List.replicate (n - bs.length) 0

/-- The packet of a word as the opcode table numbers it: up to 8 bits a tag, more bits a frame. A frame with the command
lead byte and a command's opcode is outbound; any other is inbound (30_encoding R80, log 6). -/
def tablePacket (nbits w : Nat) : Packet :=
  if nbits ≤ 8 then
    ⟨.event, BitVec.ofNat 8 w :: List.replicate (zeroOperandBytes (w % 256)) 0⟩
  else
    let bytes := wireWordBytes nbits w
    match commandLength (w % 256) with
    | some n =>
      if (w >>> 16) % 256 = 0x31 then ⟨.outbound, padZeros n bytes⟩
      else ⟨.inbound, padZeros (responseLength (w % 256)) bytes⟩
    | none => ⟨.inbound, padZeros (responseLength (w % 256)) bytes⟩

/-- A packet's word as the opcode table packs it: a tag, or the first three bytes of a frame (30_encoding R80). -/
def packedWord (p : Packet) : Nat :=
  match p.direction with
  | .event => (Machine.byteAt p.bytes 0).toNat
  | .outbound | .inbound =>
    (Machine.byteAt p.bytes 0).toNat <<< 16 ||| (Machine.byteAt p.bytes 1).toNat <<< 8
      ||| (Machine.byteAt p.bytes 2).toNat

/-- The `match` and `mask` of a row in the opcode table (30_encoding R80, R83). -/
def rowPattern : Instr → Nat × Nat
  | .readLevel => (0x310006, 0xFF00FF)
  | .readInfo => (0x310010, 0xFF00FF)
  | .reqPeriodic => (0x310007, 0xFF00FF)
  | .setMode _ => (0x310017, 0xFF00FF)
  | .setInterval _ => (0x310013, 0xFF00FF)
  | .setFilter _ => (0x31000E, 0xFF00FF)
  | .rspReading _ => (0x000006, 0x0000FF)
  | .rspInfo _ => (0x000010, 0x0000FF)
  | .rspOther _ => (0x000000, 0x000000)
  | .connect => (0x01, 0xFF)
  | .tick => (0x02, 0xFF)
  | .userPeriodic => (0x03, 0xFF)
  | .userMode _ => (0x04, 0xFF)
  | .userInterval _ => (0x05, 0xFF)
  | .userFilter _ => (0x06, 0xFF)
  | .rx _ => (0x07, 0xFF)
  | .close => (0x08, 0xFF)
  | .crcStep _ _ => (0x10, 0xFF)
  | .crc8 _ => (0x11, 0xFF)
  | .encode _ _ _ => (0x12, 0xFF)
  | .decode _ => (0x13, 0xFF)
  | .scale _ _ _ _ _ => (0x14, 0xFF)
  | .round2c _ => (0x15, 0xFF)
  | .fuel _ => (0x16, 0xFF)
  | .clamp _ _ _ => (0x17, 0xFF)
  | .tempSm _ => (0x18, 0xFF)
  | .u16le _ _ => (0x19, 0xFF)
  | .i16le _ _ => (0x1A, 0xFF)
  | .i8 _ _ => (0x1B, 0xFF)
  | .u24le _ _ => (0x1C, 0xFF)
  | .text _ _ _ => (0x1D, 0xFF)

/-- The row the decoder reads from a word of the opcode table. -/
def decodeTableWord (nbits w : Nat) : Option Instr :=
  match decode (tablePacket nbits w) with
  | .ok i => some i
  | .error _ => none

end Sys2Proof
end

