-- ==== Sys2Proof/Machine/Scaling.lean ====
section
/-! DEFINITION. The Scaling Function (42_scaling), in exact rational arithmetic (92_eei_decisions D4, log 20). -/

namespace Sys2Proof.Machine

/-- CLAMP(x, lo, hi): the upper bound first, then the lower bound (42_scaling R160). The engine uses it on rationals
(SCALE) and on integers (the USER events). -/
def clamp {α : Type} [Min α] [Max α] (x lo hi : α) : α :=
  max (min x hi) lo

/-- The linear map of SCALE on the clamped value (42_scaling R161). It is SCALE wherever `inMax ≠ inMin`. -/
def scaleMap (x inMin inMax outMin outMax : Rat) : Rat :=
  (outMax - outMin) / (inMax - inMin) * (clamp x inMin inMax - inMin) + outMin

/-- SCALE: no value when the input range is degenerate (42_scaling R161, R162). -/
def scale (x inMin inMax outMin outMax : Rat) : Option Rat :=
  if inMax = inMin then none else some (scaleMap x inMin inMax outMin outMax)

/-- ROUND2C(q): the count of hundredths nearest to q, ties toward +∞ (42_scaling R164). -/
def round2c (q : Rat) : Int :=
  ⌊100 * q + 1 / 2⌋

/-- FUEL(raw): the fuel volume in hundredths (42_scaling R165). Its input bounds are the unequal constants 0 and 4095,
so SCALE is its linear map. -/
def fuel (raw : Nat) : Nat :=
  (round2c (scaleMap raw 0 4095 0 18)).toNat

end Sys2Proof.Machine
end

