-- ==== Sys2Proof/Machine/State.lean ====
section
/-! DEFINITION. State as plain data, the records and outputs of the engine, and the reasons a step stops
(10_state, 60_exceptions). -/

namespace Sys2Proof.Machine

/-- The connection-state flag (10_state R23). -/
inductive Link where
  | closed
  | opened
  deriving DecidableEq, Repr

/-- The polling state (10_state R24). -/
inductive Phase where
  | awaitingFirstPoll
  | steadyPolling
  deriving DecidableEq, Repr

/-- A decoded reading (10_state R33). -/
structure Reading where
  /-- In [-127, 127]. -/
  temperature : Int
  /-- u16. -/
  rawLevel : Nat
  /-- The fuel volume in hundredths, in [0, 1800]. -/
  fuelCenti : Nat
  /-- u16. -/
  frequencyValue : Nat
  deriving DecidableEq, Repr

/-- A decoded device-info record (10_state R34); the text fields are raw bytes. -/
structure DeviceInfo where
  /-- 16 bytes. -/
  model : List Byte
  /-- 11 bytes. -/
  firmwareVersion : List Byte
  /-- i8. -/
  mode : Int
  /-- i8. -/
  interval : Int
  /-- i8. -/
  filterDepth : Int
  /-- i16. -/
  calibrationMin : Int
  /-- i16. -/
  calibrationMax : Int
  /-- u24. -/
  counter1 : Nat
  /-- u24. -/
  counter2 : Nat
  deriving DecidableEq, Repr

/-- A record handed to the state sink (41_frame_codec R146). -/
inductive SinkRecord where
  | reading (r : Reading)
  | deviceInfo (r : DeviceInfo)
  deriving DecidableEq, Repr

/-- One output of a step (43_polling_fsm R180). LOG is kept apart, in `State.log` (60_exceptions R243, log 17). -/
inductive Emission where
  /-- `emit TX(f, txOk)`: a write attempt and its draw (43_polling_fsm R187). -/
  | tx (frame : List Byte) (txOk : Bool)
  /-- `emit SINK(r)`: one whole record (41_frame_codec R146). -/
  | sink (r : SinkRecord)
  deriving DecidableEq, Repr

/-- The level of a log line (60_exceptions R241); its text is non-normative (R243). -/
inductive LogLevel where
  | debug
  | info
  | error
  deriving DecidableEq, Repr

/-- The status a step ends with, and the info recorded with it (60_exceptions R220). -/
inductive Status where
  /-- 0x00 OK. -/
  | ok
  /-- 0x01 DEC_READING. -/
  | decReading (r : Reading)
  /-- 0x02 DEC_INFO. -/
  | decInfo (r : DeviceInfo)
  /-- 0x03 ACCEPT_UNRECOGNIZED. -/
  | acceptUnrecognized (t : Byte)
  /-- 0x04 DROP_TOO_SHORT. -/
  | dropTooShort (n : Nat)
  /-- 0x05 DROP_BAD_CHECKSUM. -/
  | dropBadChecksum (computed received : Byte)
  /-- 0x06 DROP_SHORT_FOR_TYPE. -/
  | dropShortForType (t : Byte) (n : Nat)
  /-- 0x07 FAULT_TRANSPORT_OPEN. -/
  | faultTransportOpen
  /-- 0x08 FAULT_TRANSPORT_WRITE. -/
  | faultTransportWrite (frame : List Byte)
  /-- 0x09 IGNORED_LINK_CLOSED. -/
  | ignoredLinkClosed (tag : Byte)
  deriving DecidableEq, Repr

/-- What DECODE answers (41_frame_codec R135). -/
inductive DecodeOutcome where
  | reading (r : Reading)
  | deviceInfo (r : DeviceInfo)
  | unrecognized (t : Byte)
  | dropTooShort (n : Nat)
  | dropBadChecksum (computed received : Byte)
  | dropShortForType (t : Byte) (n : Nat)
  deriving DecidableEq, Repr

/-- Which row a step handled: an event by its tag, a command by its opcode, an operation by its tag
(30_encoding R77, R83). -/
inductive Source where
  | event (tag : Byte)
  | command (opcode : Byte)
  | operation (tag : Byte)
  deriving DecidableEq, Repr

/-- One step's part of the output trace: its emissions in order and its status (43_polling_fsm R180,
60_exceptions R220). -/
structure TraceEntry where
  source : Source
  outputs : List Emission
  status : Status
  deriving DecidableEq, Repr

/-- A call of the transport other than a write, which is an `Emission` (60_exceptions R238). -/
inductive TransportCall where
  /-- `transport.open(port, baudRate)` and its draw (43_polling_fsm R181, R182). -/
  | openPort (port baud : String) (openOk : Bool)
  /-- `transport.close()`; a failure of it is suppressed (43_polling_fsm R196). -/
  | closePort
  deriving DecidableEq, Repr

/-- What a free-standing datapath operation answers (30_encoding R83). -/
inductive OpResult where
  | byte (v : Byte)
  | bytes (v : List Byte)
  | nat (v : Nat)
  | int (v : Int)
  | rat (v : Rat)
  | decoded (v : DecodeOutcome)
  deriving DecidableEq, Repr

/-- Why a step stops with a fault. -/
inductive Fault where
  /-- SCALE_DEGENERATE(inMin), raised by SCALE when its input bounds are equal (42_scaling R162, 60_exceptions R229).
  The spec's own model fault. Safe: the spec gives no value there. -/
  | scaleDegenerate (inMin : Rat)
  /-- Raised by a free-standing extractor that would read at or past the end of its frame: an address that does not
  exist in RXBUF (00_scope R13, 20_memory R50, R51; log 13). Safe: the spec defines no read there. -/
  | offsetOutsideFrame
  /-- Raised by a send with the link open and no latched address, a state no run reaches (10_state R25; log 12). Safe:
  the spec defines no frame there. -/
  | addressNotLatched
  deriving DecidableEq, Repr

/-- Why a step is refused. -/
inductive Refusal where
  /-- Raised by `exec` for a row that has no meaning in the model; no row is left so. Safe. -/
  | notModelled (mnemonic : String)
  /-- CONNECT_WHILE_OPEN, raised by CONNECT (43_polling_fsm R183, 60_exceptions R230). Safe. -/
  | connectWhileOpen
  /-- USER_VALUE_NOT_INTEGER, raised by USER_MODE, USER_INTERVAL and USER_FILTER (43_polling_fsm R188,
  60_exceptions R230). Safe. -/
  | userValueNotInteger
  /-- CFG_ADDRESS_OUT_OF_RANGE, raised by CONNECT (10_state R27, 60_exceptions R230). Safe. -/
  | cfgAddressOutOfRange
  /-- Raised by `step` for a packet that is no row of the opcode table (log 5, log 6). Safe: the environment delivers
  none. -/
  | undecodable (e : DecodeError)
  deriving DecidableEq, Repr

/-- The machine's state: the engine state of 10_state R20, the bookkeeping marks of R40, the parameters R180 hands to
every step, what the platform is told, and the model's own ports. -/
structure State where
  /-- The connection-state flag (R23). -/
  link : Link
  /-- The polling state (R24). -/
  phase : Phase
  /-- The cached device address (R25). -/
  addr : Option Byte
  /-- The session device-info record (R26). -/
  info : Option DeviceInfo
  /-- The bookkeeping mark `fault` (R40). -/
  faultMark : Option Fault
  /-- The bookkeeping mark `refused` (R40). -/
  refusedMark : Bool
  /-- The configuration registers (R27 to R31), read-only. -/
  cfg : CfgRegs
  /-- The checksum table (R32), read-only. -/
  crcTable : CrcTable
  /-- The period the poll timer is armed with, none while disarmed (43_polling_fsm R181, R196; log 15). -/
  timer : Option Nat
  /-- The calls of the transport so far, oldest first (60_exceptions R238; log 16). -/
  calls : List TransportCall
  /-- The output trace, oldest entry first (10_state R21). -/
  trace : List TraceEntry
  /-- The log lines so far, oldest first; no claim may depend on them (60_exceptions R243; log 17). -/
  log : List LogLevel
  /-- The draws of the current step (00_scope R14; the model's own field, log 9). -/
  draws : Draws
  /-- The deliveries the environment holds, next one first (60_exceptions R235; the model's own field, log 4). -/
  inbox : List Delivery
  /-- What the last free-standing operation answered (30_encoding R83; the model's own field, log 11). -/
  result : Option OpResult
  deriving DecidableEq, Repr

/-- Power-on reset (10_state R37, R40; 70_reset_and_hazards R250), with the configuration and the table as configured
and no event delivered. -/
def State.reset : State :=
  { link := .closed
    phase := .awaitingFirstPoll
    addr := none
    info := none
    faultMark := none
    refusedMark := false
    cfg := Config.registers
    crcTable := Config.crcTable
    timer := none
    calls := []
    trace := []
    log := []
    draws := { openOk := true, txOk := true }
    inbox := []
    result := none }

end Sys2Proof.Machine
end

