-- ==== Sys2Proof/Machine/Codec.lean ====
section
/-! DEFINITION. The Frame Codec (41_frame_codec): ENCODE, the two record decoders, and DECODE's outcome as a function of
the frame and the table alone (R148). -/

namespace Sys2Proof.Machine

/-- ENCODE(addr, op, param): TXBUF written byte by byte, then its checksum (41_frame_codec R120). It validates nothing
(R121). -/
def encodeFrame (T : CrcTable) (addr op : Byte) (param : Option Byte) : List Byte :=
  let m := if param.isNone then 4 else 5
  let f := List.replicate m (0 : Byte)
  let f := memWrite (memWrite (memWrite f 0 1 0x31) 1 1 addr.toNat) 2 1 op.toNat
  let f := match param with
    | none => f
    | some p => memWrite f 3 1 p.toNat
  memWrite f (m - 1) 1 (crc8 T (f.take (m - 1))).toNat

/-- READING(f) (41_frame_codec R140). -/
def readingOf (f : List Byte) : Reading :=
  let raw := u16le f 4
  { temperature := tempSm (byteAt f 3)
    rawLevel := raw
    fuelCenti := fuel raw
    frequencyValue := u16le f 6 }

/-- DEVINFO(f) (41_frame_codec R141). -/
def deviceInfoOf (f : List Byte) : DeviceInfo :=
  { model := text f 3 19
    firmwareVersion := text f 19 30
    mode := i8 f 30
    interval := i8 f 31
    filterDepth := i8 f 32
    calibrationMin := i16le f 33
    calibrationMax := i16le f 35
    counter1 := u24le f 37
    counter2 := u24le f 40 }

/-- DECODE's outcome, its checks in the order of 60_exceptions R231 (41_frame_codec R135 to R144). -/
def decodeFrame (T : CrcTable) (f : List Byte) : DecodeOutcome :=
  let n := f.length
  if n < 4 then .dropTooShort n
  else if !frameOk T f then .dropBadChecksum (crc8 T (f.take (n - 1))) (byteAt f (n - 1))
  else
    let t := byteAt f 2
    if t = 0x06 then
      if n < 9 then .dropShortForType t n else .reading (readingOf f)
    else if t = 0x10 then
      if n < 44 then .dropShortForType t n else .deviceInfo (deviceInfoOf f)
    else .unrecognized t

/-- The status DECODE ends its step with (60_exceptions R220). -/
def DecodeOutcome.status : DecodeOutcome → Status
  | .reading r => .decReading r
  | .deviceInfo r => .decInfo r
  | .unrecognized t => .acceptUnrecognized t
  | .dropTooShort n => .dropTooShort n
  | .dropBadChecksum c r => .dropBadChecksum c r
  | .dropShortForType t n => .dropShortForType t n

/-- What DECODE emits to the sink: the whole record, once, of a frame that passed every check (41_frame_codec R145,
R146). -/
def DecodeOutcome.emissions : DecodeOutcome → List Emission
  | .reading r => [.sink (.reading r)]
  | .deviceInfo r => [.sink (.deviceInfo r)]
  | .unrecognized _ | .dropTooShort _ | .dropBadChecksum _ _ | .dropShortForType _ _ => []

/-- The log lines DECODE emits (41_frame_codec R135; non-normative, log 17). -/
def DecodeOutcome.logs : DecodeOutcome → List LogLevel
  | .dropBadChecksum _ _ | .unrecognized _ => [.debug]
  | .reading _ | .deviceInfo _ | .dropTooShort _ | .dropShortForType _ _ => []

/-- The fuel volume in physical units, `fuelCenti / 100` (10_state R33). -/
def Reading.fuelVolume (r : Reading) : Rat :=
  r.fuelCenti / 100

/-- One `setValue(key, value, isAcknowledged)` of the state sink (60_exceptions R239). -/
structure SinkWrite where
  key : String
  value : OpResult
  isAcknowledged : Bool
  deriving DecidableEq, Repr

/-- What storing a record means to the sink: each field under its name, acknowledged (20_memory R60, 41_frame_codec
R146, 92_eei_decisions D10; log 26). The order of the list is not the spec's. -/
def SinkRecord.writes : SinkRecord → List SinkWrite
  | .reading r =>
    [⟨"temperature", .int r.temperature, true⟩, ⟨"rawLevel", .nat r.rawLevel, true⟩,
     ⟨"fuelVolume", .rat r.fuelVolume, true⟩, ⟨"frequencyValue", .nat r.frequencyValue, true⟩]
  | .deviceInfo r =>
    [⟨"model", .bytes r.model, true⟩, ⟨"firmwareVersion", .bytes r.firmwareVersion, true⟩, ⟨"mode", .int r.mode, true⟩,
     ⟨"interval", .int r.interval, true⟩, ⟨"filterDepth", .int r.filterDepth, true⟩,
     ⟨"calibrationMin", .int r.calibrationMin, true⟩, ⟨"calibrationMax", .int r.calibrationMax, true⟩,
     ⟨"counter1", .nat r.counter1, true⟩, ⟨"counter2", .nat r.counter2, true⟩]

end Sys2Proof.Machine
end

