-- ==== Sys2Proof/Machine/Ops.lean ====
section
/-! DEFINITION. The named operations over State that every meaning is made of: field updates, recording a step's outputs
and status, sending, ignoring, decoding, and taking the next delivery. The engine takes no exception (60_exceptions R220,
R233): ending a step with a status is the one shared operation `State.record`. -/

namespace Sys2Proof.Machine

/-! ### Field updates -/

/-- `s.link <- l`. -/
def State.setLink (s : State) (l : Link) : State := { s with link := l }

/-- `s.phase <- p`. -/
def State.setPhase (s : State) (p : Phase) : State := { s with phase := p }

/-- `s.addr <- a`. -/
def State.setAddr (s : State) (a : Option Byte) : State := { s with addr := a }

/-- `s.info <- r`. -/
def State.setInfo (s : State) (r : Option DeviceInfo) : State := { s with info := r }

/-- Arm the poll timer with a period, or disarm it. -/
def State.setTimer (s : State) (t : Option Nat) : State := { s with timer := t }

/-- Call the transport. -/
def State.call (s : State) (c : TransportCall) : State := { s with calls := s.calls ++ [c] }

/-- Emit log lines. -/
def State.addLogs (s : State) (ls : List LogLevel) : State := { s with log := s.log ++ ls }

/-- End a step: its emissions, in order, and its one status join the output trace (43_polling_fsm R180,
60_exceptions R220). -/
def State.record (s : State) (src : Source) (outs : List Emission) (st : Status) : State :=
  { s with trace := s.trace ++ [{ source := src, outputs := outs, status := st }] }

/-- Leave the answer of a free-standing operation (30_encoding R83, log 11). -/
def State.answer (s : State) (r : OpResult) : State := { s with result := some r }

/-- The draws of the step. -/
def State.setDraws (s : State) (d : Draws) : State := { s with draws := d }

/-- What the environment holds. -/
def State.setInbox (s : State) (ds : List Delivery) : State := { s with inbox := ds }

/-! ### Ending a step -/

/-- IGNORED_LINK_CLOSED: nothing is emitted and nothing else changes (60_exceptions R227). -/
def ignoreClosed (src : Source) (tag : Byte) (s : State) : Host.Outcome State Fault Refusal :=
  .next (s.record src [] (.ignoredLinkClosed tag))

/-- SEND(f): the state after the write, and the status it gives the step (43_polling_fsm R187). -/
def send (f : List Byte) (s : State) : State × Status :=
  if s.draws.txOk then (s, .ok) else ((s.setLink .closed).addLogs [.error], .faultTransportWrite f)

/-- SEND(ENCODE(s.addr, op, param)) and the rest of its event, `after`, which completes whatever the draw was
(43_polling_fsm R185, R187). -/
def sendCommand (src : Source) (op : Byte) (param : Option Byte) (after : State → State) (s : State) :
    Host.Outcome State Fault Refusal :=
  match s.addr with
  | none => .fault .addressNotLatched
  | some a =>
    let f := encodeFrame s.crcTable a op param
    let (s', st) := send f s
    .next ((after s').record src [.tx f s.draws.txOk] st)

/-- A send that needs the open link: ignored while it is closed (43_polling_fsm R184, R188; 70_reset_and_hazards
R254). -/
def sendIfOpen (src : Source) (tag op : Byte) (param : Option Byte) (s : State) :
    Host.Outcome State Fault Refusal :=
  match s.link with
  | .closed => ignoreClosed src tag s
  | .opened => sendCommand src op param id s

/-- The parameter byte of a command: the clamped integer itself (30_encoding R86, 43_polling_fsm R188). -/
def clampParam (v hi : Int) : Byte :=
  BitVec.ofInt 8 (clamp v 0 hi)

/-- A USER event with an operand (43_polling_fsm R188): ignored while the link is closed, refused for a value that is no
integer, else the clamped parameter is sent at once. -/
def userWrite (tag op : Byte) (hi : Int) (v : HostValue) (s : State) : Host.Outcome State Fault Refusal :=
  match s.link with
  | .closed => ignoreClosed (.event tag) tag s
  | .opened =>
    match v with
    | .notInteger => .refused .userValueNotInteger
    | .integer n => sendCommand (.event tag) op (some (clampParam n hi)) id s

/-- What DECODE does to the state with its outcome: store a device-info record, emit, and end with the outcome's status
(41_frame_codec R135, R145). -/
def applyDecode (src : Source) (o : DecodeOutcome) (s : State) : State :=
  let s := match o with
    | .deviceInfo r => s.setInfo (some r)
    | .reading _ | .unrecognized _ | .dropTooShort _ | .dropBadChecksum _ _ | .dropShortForType _ _ => s
  (s.addLogs o.logs).record src o.emissions o.status

/-- The arrival of a frame on the RX port (43_polling_fsm R194, R195). -/
def receive (f : List Byte) (s : State) : Host.Outcome State Fault Refusal :=
  match s.link with
  | .closed => ignoreClosed (.event 0x07) 0x07 s
  | .opened => .next (applyDecode (.event 0x07) (decodeFrame s.crcTable f) s)

/-- The poll timer's period: CFG_POLL_MS, or POLL_DEFAULT_MS when unset (43_polling_fsm R181). -/
def pollPeriod (c : CfgRegs) : Nat :=
  c.pollMs.getD c.pollDefaultMs

/-- CFG_ADDRESS as the byte CONNECT latches; none when it is no integer in 0..255 (10_state R27). -/
def legalAddress : HostValue → Option Byte
  | .notInteger => none
  | .integer v => if 0 ≤ v ∧ v ≤ 255 then some (BitVec.ofInt 8 v) else none

/-- The state after a successful open: the connection reset (43_polling_fsm R181, 10_state R38). -/
def openConnection (a : Byte) (s : State) : State :=
  ((((((s.call (.openPort s.cfg.port s.cfg.baud true)).setLink .opened).setPhase .awaitingFirstPoll).setAddr
    (some a)).setInfo none).setTimer (some (pollPeriod s.cfg))).record (.event 0x01) [] .ok

/-- The state after a failed open (43_polling_fsm R182). -/
def failOpen (s : State) : State :=
  ((s.call (.openPort s.cfg.port s.cfg.baud false)).addLogs [.error]).record (.event 0x01) [] .faultTransportOpen

/-- The state after CLOSE: timer disarmed, transport closed, link Closed, all else unchanged (43_polling_fsm R196). -/
def closeConnection (s : State) : State :=
  (((s.setTimer none).call .closePort).setLink .closed).record (.event 0x08) [] .ok

/-- A free-standing operation that answers a value and reads and writes nothing else (30_encoding R83). -/
def answerWith (r : OpResult) (s : State) : Host.Outcome State Fault Refusal :=
  .next (s.answer r)

/-- A free-standing extractor of `n` bytes at `off`: a read outside the frame faults (20_memory R51, log 13). -/
def extract (f : List Byte) (off n : Nat) (r : OpResult) (s : State) : Host.Outcome State Fault Refusal :=
  if inFrame f off n then answerWith r s else .fault .offsetOutsideFrame

/-! ### Deliveries -/

/-- The next delivery, and the state that handles it: consumed, with its draws (60_exceptions R235, 00_scope R14). -/
def takeDelivery (s : State) : Option (Packet × State) :=
  match s.inbox with
  | [] => none
  | d :: rest => some (d.packet, (s.setInbox rest).setDraws d.draws)

/-- Place a packet so that it is handled next; its draws are the ones State holds now. -/
def deliverNext (p : Packet) (s : State) : State :=
  s.setInbox ({ packet := p, draws := s.draws } :: s.inbox)

/-! ### Bookkeeping marks -/

/-- The state with the marks of 10_state R40 as a step's outcome leaves them: a model fault sets `fault`
(60_exceptions R229), a refusal sets `refused` (R230), and no step clears either. -/
def markedState (s : State) : Host.Outcome State Fault Refusal → State
  | .next s' => s'
  | .fault r => { s with faultMark := some r }
  | .refused _ => { s with refusedMark := true }

end Sys2Proof.Machine
end

