-- ==== Sys2Proof/Machine/Commands.lean ====
section
/-! DEFINITION. The six command rows: each is the sending half of the event that sends it (30_encoding R77; log 7). The
status of a send that the closed link turns away carries that event's tag. -/

namespace Sys2Proof.Machine

/-- READ_LEVEL: SEND(ENCODE(s.addr, 0x06, none)); the phase is unchanged (43_polling_fsm R186). -/
def execReadLevel (s : State) : Host.Outcome State Fault Refusal :=
  sendIfOpen (.command 0x06) 0x02 0x06 none s

/-- READ_INFO: SEND(ENCODE(s.addr, 0x10, none)) (43_polling_fsm R185). The transition to SteadyPolling is TICK's, the
only writer of it (10_state R24). -/
def execReadInfo (s : State) : Host.Outcome State Fault Refusal :=
  sendIfOpen (.command 0x10) 0x02 0x10 none s

/-- REQ_PERIODIC: SEND(ENCODE(s.addr, 0x07, none)) (43_polling_fsm R189). -/
def execReqPeriodic (s : State) : Host.Outcome State Fault Refusal :=
  sendIfOpen (.command 0x07) 0x03 0x07 none s

/-- SET_MODE: the parameter is CLAMP(p, 0, 2) (43_polling_fsm R190). -/
def execSetMode (p : Byte) (s : State) : Host.Outcome State Fault Refusal :=
  sendIfOpen (.command 0x17) 0x04 0x17 (some (clampParam p.toNat 2)) s

/-- SET_INTERVAL: the parameter is CLAMP(p, 0, 255) (43_polling_fsm R191). -/
def execSetInterval (p : Byte) (s : State) : Host.Outcome State Fault Refusal :=
  sendIfOpen (.command 0x13) 0x05 0x13 (some (clampParam p.toNat 255)) s

/-- SET_FILTER: the parameter is CLAMP(p, 0, 20) (43_polling_fsm R192). -/
def execSetFilter (p : Byte) (s : State) : Host.Outcome State Fault Refusal :=
  sendIfOpen (.command 0x0E) 0x06 0x0E (some (clampParam p.toNat 20)) s

end Sys2Proof.Machine
end

