-- ==== Sys2Proof/Machine/Datapath.lean ====
section
/-! DEFINITION. The fourteen datapath operations as free-standing functions (30_encoding R83): each answers its value in
`result` (log 11). DECODE alone also has effects: it stores a device-info record, emits and ends with a status. -/

namespace Sys2Proof.Machine

/-- CRC_STEP (40_checksum R100). -/
def execCrcStep (c b : Byte) (s : State) : Host.Outcome State Fault Refusal :=
  answerWith (.byte (crcStep s.crcTable c b)) s

/-- CRC8 (40_checksum R101). -/
def execCrc8 (bs : List Byte) (s : State) : Host.Outcome State Fault Refusal :=
  answerWith (.byte (crc8 s.crcTable bs)) s

/-- ENCODE (41_frame_codec R120, R121): builds the frame; sending it is a separate act. -/
def execEncode (addr op : Byte) (param : Option Byte) (s : State) : Host.Outcome State Fault Refusal :=
  answerWith (.bytes (encodeFrame s.crcTable addr op param)) s

/-- DECODE (41_frame_codec R135): whether the link is open is RX's condition, not DECODE's (R148). -/
def execDecode (f : List Byte) (s : State) : Host.Outcome State Fault Refusal :=
  let o := decodeFrame s.crcTable f
  .next ((applyDecode (.operation 0x13) o s).answer (.decoded o))

/-- SCALE (42_scaling R161); equal input bounds are the model fault SCALE_DEGENERATE (R162). -/
def execScale (x inMin inMax outMin outMax : Rat) (s : State) : Host.Outcome State Fault Refusal :=
  match scale x inMin inMax outMin outMax with
  | none => .fault (.scaleDegenerate inMin)
  | some q => answerWith (.rat q) s

/-- ROUND2C (42_scaling R164). -/
def execRound2c (q : Rat) (s : State) : Host.Outcome State Fault Refusal :=
  answerWith (.int (round2c q)) s

/-- FUEL (42_scaling R165). -/
def execFuel (raw : BitVec 16) (s : State) : Host.Outcome State Fault Refusal :=
  answerWith (.nat (fuel raw.toNat)) s

/-- CLAMP (42_scaling R160). -/
def execClamp (x lo hi : Rat) (s : State) : Host.Outcome State Fault Refusal :=
  answerWith (.rat (clamp x lo hi)) s

/-- TEMP_SM (41_frame_codec R125). -/
def execTempSm (b : Byte) (s : State) : Host.Outcome State Fault Refusal :=
  answerWith (.int (tempSm b)) s

/-- U16LE (41_frame_codec R126). -/
def execU16le (f : List Byte) (off : Nat) (s : State) : Host.Outcome State Fault Refusal :=
  extract f off 2 (.nat (u16le f off)) s

/-- I16LE (41_frame_codec R127). -/
def execI16le (f : List Byte) (off : Nat) (s : State) : Host.Outcome State Fault Refusal :=
  extract f off 2 (.int (i16le f off)) s

/-- I8 (41_frame_codec R128). -/
def execI8 (f : List Byte) (off : Nat) (s : State) : Host.Outcome State Fault Refusal :=
  extract f off 1 (.int (i8 f off)) s

/-- U24LE (41_frame_codec R129). -/
def execU24le (f : List Byte) (off : Nat) (s : State) : Host.Outcome State Fault Refusal :=
  extract f off 3 (.nat (u24le f off)) s

/-- TEXT(a, b) (41_frame_codec R130): its operand condition is `b ≤ n`. -/
def execText (f : List Byte) (a b : Nat) (s : State) : Host.Outcome State Fault Refusal :=
  extract f b 0 (.bytes (text f a b)) s

end Sys2Proof.Machine
end

