-- ==== Sys2Proof/Machine/Events.lean ====
section
/-! DEFINITION. The eight input events (43_polling_fsm R181 to R196). -/

namespace Sys2Proof.Machine

/-- CONNECT: refused while open (R183) and for an illegal CFG_ADDRESS (60_exceptions R230), else by the draw `openOk` a
new connection (R181) or an open failure (R182). Where both refusals apply, the
first listed is given; an illegal CFG_ADDRESS is refused whatever the draw, before the open is tried. Both are the model's
choice (DESIGN CHOICE, log 18). -/
def execConnect (s : State) : Host.Outcome State Fault Refusal :=
  match s.link with
  | .opened => .refused .connectWhileOpen
  | .closed =>
    match legalAddress s.cfg.address with
    | none => .refused .cfgAddressOutOfRange
    | some a => .next (if s.draws.openOk then openConnection a s else failOpen s)

/-- TICK: ignored while closed (R184); the first poll sends READ_INFO and moves to SteadyPolling whatever the draw
(R185); a later poll sends READ_LEVEL (R186). -/
def execTick (s : State) : Host.Outcome State Fault Refusal :=
  match s.link, s.phase with
  | .closed, _ => ignoreClosed (.event 0x02) 0x02 s
  | .opened, .awaitingFirstPoll => sendCommand (.event 0x02) 0x10 none (fun t => t.setPhase .steadyPolling) s
  | .opened, .steadyPolling => sendCommand (.event 0x02) 0x06 none id s

/-- USER_PERIODIC (R189). -/
def execUserPeriodic (s : State) : Host.Outcome State Fault Refusal :=
  sendIfOpen (.event 0x03) 0x03 0x07 none s

/-- USER_MODE v (R190). -/
def execUserMode (v : HostValue) (s : State) : Host.Outcome State Fault Refusal :=
  userWrite 0x04 0x17 2 v s

/-- USER_INTERVAL v (R191). -/
def execUserInterval (v : HostValue) (s : State) : Host.Outcome State Fault Refusal :=
  userWrite 0x05 0x13 255 v s

/-- USER_FILTER v (R192). -/
def execUserFilter (v : HostValue) (s : State) : Host.Outcome State Fault Refusal :=
  userWrite 0x06 0x0E 20 v s

/-- RX f (R194, R195). -/
def execRx (f : List Byte) (s : State) : Host.Outcome State Fault Refusal :=
  receive f s

/-- CLOSE, in either link state (R196). -/
def execClose (s : State) : Host.Outcome State Fault Refusal :=
  .next (closeConnection s)

end Sys2Proof.Machine
end

