-- ==== Sys2Proof/Machine/Responses.lean ====
section
/-! DEFINITION. The three response rows: each is the arrival of its frame on the RX port (60_exceptions R237, R238;
log 8). -/

namespace Sys2Proof.Machine

/-- RSP_READING: the frame of format RSP9 arrives (41_frame_codec R140, 43_polling_fsm R194). -/
def execRspReading (f : ReadingFrame) (s : State) : Host.Outcome State Fault Refusal :=
  receive (readingFrameBytes f) s

/-- RSP_INFO: the frame of format RSP44 arrives (41_frame_codec R141, 43_polling_fsm R194). -/
def execRspInfo (f : InfoFrame) (s : State) : Host.Outcome State Fault Refusal :=
  receive (infoFrameBytes f) s

/-- RSP_OTHER: the frame of format RSPANY arrives (41_frame_codec R142, 43_polling_fsm R194). -/
def execRspOther (f : OtherFrame) (s : State) : Host.Outcome State Fault Refusal :=
  receive (otherFrameBytes f) s

end Sys2Proof.Machine
end

