-- ==== Sys2Proof/Machine/Dispatch.lean ====
section
/-! DEFINITION. One arm per row of the opcode table. -/

namespace Sys2Proof.Machine

def exec (i : Instr) (s : State) : Host.Outcome State Fault Refusal :=
  match i with
  -- commands (30_encoding R77)
  | .readLevel => Sys2Proof.Machine.execReadLevel s
  | .readInfo => Sys2Proof.Machine.execReadInfo s
  | .reqPeriodic => Sys2Proof.Machine.execReqPeriodic s
  | .setMode p => Sys2Proof.Machine.execSetMode p s
  | .setInterval p => Sys2Proof.Machine.execSetInterval p s
  | .setFilter p => Sys2Proof.Machine.execSetFilter p s
  -- responses (30_encoding R78)
  | .rspReading f => Sys2Proof.Machine.execRspReading f s
  | .rspInfo f => Sys2Proof.Machine.execRspInfo f s
  | .rspOther f => Sys2Proof.Machine.execRspOther f s
  -- events (30_encoding R83)
  | .connect => Sys2Proof.Machine.execConnect s
  | .tick => Sys2Proof.Machine.execTick s
  | .userPeriodic => Sys2Proof.Machine.execUserPeriodic s
  | .userMode v => Sys2Proof.Machine.execUserMode v s
  | .userInterval v => Sys2Proof.Machine.execUserInterval v s
  | .userFilter v => Sys2Proof.Machine.execUserFilter v s
  | .rx f => Sys2Proof.Machine.execRx f s
  | .close => Sys2Proof.Machine.execClose s
  -- datapath operations (30_encoding R83)
  | .crcStep c b => Sys2Proof.Machine.execCrcStep c b s
  | .crc8 bs => Sys2Proof.Machine.execCrc8 bs s
  | .encode a op param => Sys2Proof.Machine.execEncode a op param s
  | .decode f => Sys2Proof.Machine.execDecode f s
  | .scale x inMin inMax outMin outMax => Sys2Proof.Machine.execScale x inMin inMax outMin outMax s
  | .round2c q => Sys2Proof.Machine.execRound2c q s
  | .fuel raw => Sys2Proof.Machine.execFuel raw s
  | .clamp x lo hi => Sys2Proof.Machine.execClamp x lo hi s
  | .tempSm b => Sys2Proof.Machine.execTempSm b s
  | .u16le f off => Sys2Proof.Machine.execU16le f off s
  | .i16le f off => Sys2Proof.Machine.execI16le f off s
  | .i8 f off => Sys2Proof.Machine.execI8 f off s
  | .u24le f off => Sys2Proof.Machine.execU24le f off s
  | .text f a b => Sys2Proof.Machine.execText f a b s

end Sys2Proof.Machine
end

