-- ==== Sys2Proof/Machine/Step.lean ====
section
/-! DEFINITION. One step: handle the next delivery to completion (43_polling_fsm R180, 20_memory R57). -/

namespace Sys2Proof.Machine

/-- One step. With no delivery nothing happens: the engine acts on events only (00_scope R3, log 4). A packet that is no
row of the opcode table is refused by name. -/
def step (s : State) : Host.Outcome State Fault Refusal :=
  match takeDelivery s with
  | none => .next s
  | some (p, t) =>
    match decode p with
    | .ok i => exec i t
    | .error e => .refused (.undecodable e)

/-- The state whose next step runs the instruction of an opcode-table word: the word's packet is delivered next, with
the draws State holds (log 4, log 6). -/
def State.withFetchWord (s : State) (nbits w : Nat) : State :=
  deliverNext (tablePacket nbits w) s

end Sys2Proof.Machine
end

