-- ==== Sys2Proof/Machine/Flags.lean ====
section
/-! DEFINITION. The engine has no flags (headers of 40_checksum, 41_frame_codec, 42_scaling; 43_polling_fsm). What a step
leaves where a processor leaves flags is its status: the codes and classes of 60_exceptions R220 to R228. -/

namespace Sys2Proof.Machine

/-- The status code (60_exceptions R220, 92_eei_decisions D21). -/
def Status.code : Status → Byte
  | .ok => 0x00
  | .decReading _ => 0x01
  | .decInfo _ => 0x02
  | .acceptUnrecognized _ => 0x03
  | .dropTooShort _ => 0x04
  | .dropBadChecksum _ _ => 0x05
  | .dropShortForType _ _ => 0x06
  | .faultTransportOpen => 0x07
  | .faultTransportWrite _ => 0x08
  | .ignoredLinkClosed _ => 0x09

/-- The class of a status (60_exceptions R220). -/
inductive StatusClass where
  | success
  | acceptedIgnored
  | dropped
  | transportFault
  | ignored
  deriving DecidableEq, Repr

/-- The class column of 60_exceptions R220. -/
def Status.classOf : Status → StatusClass
  | .ok | .decReading _ | .decInfo _ => .success
  | .acceptUnrecognized _ => .acceptedIgnored
  | .dropTooShort _ | .dropBadChecksum _ _ | .dropShortForType _ _ => .dropped
  | .faultTransportOpen | .faultTransportWrite _ => .transportFault
  | .ignoredLinkClosed _ => .ignored

/-- How many SINK emissions come with a status: exactly one with DEC_READING and DEC_INFO, none with any other
(60_exceptions R221 to R225, R227). -/
def Status.sinkCount : Status → Nat
  | .decReading _ | .decInfo _ => 1
  | .ok | .acceptUnrecognized _ | .dropTooShort _ | .dropBadChecksum _ _ | .dropShortForType _ _ => 0
  | .faultTransportOpen | .faultTransportWrite _ | .ignoredLinkClosed _ => 0

end Sys2Proof.Machine
end

