-- ==== Sys2Proof/Machine/Script.lean ====
section
/-! DEFINITION. The spec's script notation for event sequences and its pseudo-events (30_encoding R84, R85), read from
text and expanded to deliveries. -/

namespace Sys2Proof.Machine

/-- One line of a script: an event with its draw (R84), or a pseudo-event (R85). -/
inductive ScriptLine where
  | connect (openOk : Bool)
  | tick (txOk : Bool)
  | userPeriodic (txOk : Bool)
  | userMode (v : Int) (txOk : Bool)
  | userInterval (v : Int) (txOk : Bool)
  | userFilter (v : Int) (txOk : Bool)
  | rx (f : List Byte)
  | close
  /-- `rxc <hex bytes>`: the frame with its checksum appended. -/
  | rxc (body : List Byte)
  /-- `poll <n>`: n ticks. -/
  | poll (n : Nat)
  deriving DecidableEq, Repr

/-- The digits of the notation, each standing at the place of its value. -/
def digits : List Char :=
  "0123456789ABCDEF".toList

/-- The value of a digit below `base`: its place among the digits, in either case of a letter (log 35). -/
def digitValue (base : Nat) (c : Char) : Option Nat :=
  (digits.take base).findIdx? (· = c.toUpper)

/-- A byte: two hex digits, no `0x` (R84). -/
def hexByte (tok : String) : Option Byte :=
  match tok.toList with
  | [hi, lo] => do
    let h ← digitValue 16 hi
    let l ← digitValue 16 lo
    some (BitVec.ofNat 8 (16 * h + l))
  | _ => none

/-- Decimal digits after the value `acc` of the digits before them. -/
def decimalFrom (acc : Nat) : List Char → Option Nat
  | [] => some acc
  | c :: cs => (digitValue 10 c).bind fun d => decimalFrom (10 * acc + d) cs

/-- A natural number. R84 and R85 name no base; the model reads decimal only (DESIGN CHOICE, log 35). -/
def decimalNat : List Char → Option Nat
  | [] => none
  | cs => decimalFrom 0 cs

/-- An integer, with `-` before a negative one; decimal only, `0x` is refused (DESIGN CHOICE, log 35). -/
def decimalInt (tok : String) : Option Int :=
  match tok.toList with
  | '-' :: cs => (decimalNat cs).map fun n => -(n : Int)
  | cs => (decimalNat cs).map fun n => (n : Int)

/-- The draw a line's end gives: true with no suffix, false with the suffix (R84). -/
def drawSuffix (suffix : String) : List String → Option Bool
  | [] => some true
  | [tok] => if tok = suffix then some false else none
  | _ => none

/-- One line of words (R84, R85). -/
def parseWords : List String → Option ScriptLine
  | "connect" :: rest => (drawSuffix "!openfail" rest).map .connect
  | "tick" :: rest => (drawSuffix "!txfail" rest).map .tick
  | "user" :: "periodic" :: rest => (drawSuffix "!txfail" rest).map .userPeriodic
  | "user" :: "mode" :: v :: rest => do
    some (.userMode (← decimalInt v) (← drawSuffix "!txfail" rest))
  | "user" :: "interval" :: v :: rest => do
    some (.userInterval (← decimalInt v) (← drawSuffix "!txfail" rest))
  | "user" :: "filter" :: v :: rest => do
    some (.userFilter (← decimalInt v) (← drawSuffix "!txfail" rest))
  | "rx" :: bytes => (bytes.mapM hexByte).map .rx
  | ["close"] => some .close
  | "rxc" :: bytes => (bytes.mapM hexByte).map .rxc
  | ["poll", n] => (decimalNat n.toList).map .poll
  | _ => none

/-- The words of a line, its comment dropped (R84). -/
def wordsOf (line : List Char) : List String :=
  (((line.takeWhile (· ≠ '#')).splitOn ' ').filter (· ≠ [])).map String.ofList

/-- A script: one event a line, empty and comment lines skipped; none where a line is not of the notation. -/
def parseScript (script : List Char) : Option (List ScriptLine) :=
  (((script.splitOn '\n').map wordsOf).filter (· ≠ [])).mapM parseWords

/-- The delivery of an event; an event's packet depends on no table and no address. -/
def eventDelivery (T : CrcTable) (i : Instr) (d : Draws) : Delivery :=
  { packet := encode T 0 i, draws := d }

/-- What a line stands for: one delivery, or a pseudo-event's expansion (R84, R85). A draw the line does not name is
true. -/
def ScriptLine.expand (T : CrcTable) : ScriptLine → List Delivery
  | .connect ok => [eventDelivery T .connect ⟨ok, true⟩]
  | .tick ok => [eventDelivery T .tick ⟨true, ok⟩]
  | .userPeriodic ok => [eventDelivery T .userPeriodic ⟨true, ok⟩]
  | .userMode v ok => [eventDelivery T (.userMode (.integer v)) ⟨true, ok⟩]
  | .userInterval v ok => [eventDelivery T (.userInterval (.integer v)) ⟨true, ok⟩]
  | .userFilter v ok => [eventDelivery T (.userFilter (.integer v)) ⟨true, ok⟩]
  | .rx f => [eventDelivery T (.rx f) ⟨true, true⟩]
  | .close => [eventDelivery T .close ⟨true, true⟩]
  | .rxc body => [eventDelivery T (.rx (appendCrc T body)) ⟨true, true⟩]
  | .poll n => List.replicate n (eventDelivery T .tick ⟨true, true⟩)

/-- Deliver a script's events after those the environment already holds. -/
def loadScript (ls : List ScriptLine) (s : State) : State :=
  s.setInbox (s.inbox ++ ls.flatMap (ScriptLine.expand s.crcTable))

end Sys2Proof.Machine
end

