-- ==== Sys2Proof/Safety.lean ====
section
/-! DEFINITION. The predicates the statements speak in: layouts of records, the frames the engine may send, the
invariants of a session and of the output trace, and runs over a list of rows. -/

namespace Sys2Proof.Machine

/-- Every field of a reading is in the range 10_state R33 gives it. -/
abbrev Reading.inRange (r : Reading) : Prop :=
  (-127 ≤ r.temperature ∧ r.temperature ≤ 127) ∧ r.rawLevel < 2 ^ 16 ∧ r.fuelCenti ≤ 1800 ∧ r.frequencyValue < 2 ^ 16

/-- Every field of a device-info record has the width 10_state R34 gives it. -/
abbrev DeviceInfo.inRange (r : DeviceInfo) : Prop :=
  (r.model.length = 16 ∧ r.firmwareVersion.length = 11) ∧
  (-128 ≤ r.mode ∧ r.mode ≤ 127) ∧ (-128 ≤ r.interval ∧ r.interval ≤ 127) ∧
  (-128 ≤ r.filterDepth ∧ r.filterDepth ≤ 127) ∧
  (-32768 ≤ r.calibrationMin ∧ r.calibrationMin ≤ 32767) ∧
  (-32768 ≤ r.calibrationMax ∧ r.calibrationMax ≤ 32767) ∧
  r.counter1 < 2 ^ 24 ∧ r.counter2 < 2 ^ 24

/-- A record handed to the sink is in range. -/
def SinkRecord.inRange : SinkRecord → Prop
  | .reading r => r.inRange
  | .deviceInfo r => r.inRange

/-- The frames the engine may send with table `T` and latched address `a`: the six commands, their parameters in the
clamp ranges (30_encoding R71, R72, R77, R86). -/
def isCommandFrame (T : CrcTable) (a : Byte) (f : List Byte) : Prop :=
  f = cmd4Bytes T a 0x06 ∨ f = cmd4Bytes T a 0x10 ∨ f = cmd4Bytes T a 0x07 ∨
  (∃ p : Byte, p ≤ 2 ∧ f = cmd5Bytes T a 0x17 p) ∨
  (∃ p : Byte, f = cmd5Bytes T a 0x13 p) ∨
  (∃ p : Byte, p ≤ 20 ∧ f = cmd5Bytes T a 0x0E p)

/-- The emission is a SINK. -/
def Emission.isSink : Emission → Bool
  | .sink _ => true
  | .tx _ _ => false

/-- The session invariant: an open link has a latched address and an armed timer (10_state R25, 43_polling_fsm R181,
R196); a latched address is CFG_ADDRESS (R198); a stored record has its layout (10_state R34). -/
structure SessionInv (s : State) : Prop where
  open_addr : s.link = .opened → s.addr.isSome
  open_timer : s.link = .opened → s.timer.isSome
  addr_cfg : ∀ a, s.addr = some a → legalAddress s.cfg.address = some a
  info_range : ∀ r, s.info = some r → r.inRange

/-- Nothing on the list of entries breaks the rules of the output ports: every write attempt is one of the six commands
to CFG_ADDRESS, and every record handed to the sink is in range. -/
structure PortsInv (s : State) : Prop where
  tx_command : ∀ e ∈ s.trace, ∀ f ok, Emission.tx f ok ∈ e.outputs →
    ∃ a, legalAddress s.cfg.address = some a ∧ isCommandFrame s.crcTable a f
  sink_range : ∀ e ∈ s.trace, ∀ r, Emission.sink r ∈ e.outputs → r.inRange

/-- The row is one of the eight input events. -/
def isEvent : Instr → Bool
  | .connect | .tick | .userPeriodic | .userMode _ | .userInterval _ | .userFilter _ | .rx _ | .close => true
  | .readLevel | .readInfo | .reqPeriodic | .setMode _ | .setInterval _ | .setFilter _ => false
  | .rspReading _ | .rspInfo _ | .rspOther _ => false
  | .crcStep _ _ | .crc8 _ | .encode _ _ _ | .decode _ | .scale _ _ _ _ _ | .round2c _ | .fuel _ | .clamp _ _ _ => false
  | .tempSm _ | .u16le _ _ | .i16le _ _ | .i8 _ _ | .u24le _ _ | .text _ _ _ => false

/-- Handle a list of rows in order, each with its draws; a fault or a refusal ends the run. -/
def runRows : List (Instr × Draws) → State → Host.Outcome State Fault Refusal
  | [], s => .next s
  | (i, d) :: rows, s =>
    match exec i (s.setDraws d) with
    | .next t => runRows rows t
    | .fault r => .fault r
    | .refused r => .refused r

/-- The frames an entry attempted to write, in order. -/
def TraceEntry.frames (e : TraceEntry) : List (List Byte) :=
  e.outputs.filterMap fun
    | .tx f _ => some f
    | .sink _ => none

/-- The frames that TICKs attempted to write, in the order of the trace. -/
def tickFrames (trace : List TraceEntry) : List (List Byte) :=
  (trace.filter fun e => e.source == .event 0x02).flatMap TraceEntry.frames

/-- `t` is `u` but for the log, whose lines no claim may depend on (60_exceptions R243). -/
def agreesButLog (t u : State) : Prop :=
  t = { u with log := t.log }

/-- `exec i s` answers a next state, and it is `u` but for the log. -/
def completesIn (i : Instr) (s u : State) : Prop :=
  ∃ t, exec i s = .next t ∧ agreesButLog t u

/-- `exec i s` answers a next state that is `u` after one SEND of the frame `f` (43_polling_fsm R187), by the draw: the
write succeeds and the status is OK, or it fails, the link closes and the status is FAULT_TRANSPORT_WRITE. Either way the
attempt is the step's one output, recorded with its draw. -/
def completesSending (i : Instr) (s : State) (src : Source) (f : List Byte) (u : State) : Prop :=
  (s.draws.txOk = true → completesIn i s (u.record src [.tx f true] .ok)) ∧
  (s.draws.txOk = false →
    completesIn i s ((u.setLink .closed).record src [.tx f false] (.faultTransportWrite f)))

end Sys2Proof.Machine
end

