-- ==== Sys2Proof/Certificates/Slice0/Obligations.lean ====
section
/-! DEFINITION. The statements for the provers. A statement that gives a whole next state gives its frame with it: every
field not named keeps its value. The log is left open throughout (60_exceptions R243). -/

open Sys2Proof Sys2Proof.Machine

/-! ### Encoding and the step -/

/-- Every row that fits its layout is read back from its packet, whatever the table and the latched address (30_encoding
R71 to R75, R80, R83). The operand bytes after a tag are the model's layout (log 5). -/
def Obligations.DecodeEncodeRoundTrip : Prop :=
  ∀ (T : CrcTable) (addr : Byte) (i : Instr), i.fitsLayout = true → decode (encode T addr i) = .ok i

/-- Every inbound frame, of any length and content, is some row, and executing that row is RX of the frame (30_encoding
R78, R82; 43_polling_fsm R194). The response rows' meaning as an arrival is log 8. -/
def Obligations.InboundRowsAreRxOfTheirFrame : Prop :=
  ∀ (f : List Byte) (s : State), ∃ i, decode ⟨.inbound, f⟩ = .ok i ∧ exec i s = exec (.rx f) s

/-- Words decode to the rows they stand for. Their frame bytes and tags are written out from the spec's encodings
(30_encoding R72, R73, R80, R83); two things in them are the model's choice: that a table word is read as outbound by its
lead byte (log 6), and that the operand byte follows its tag (log 5). -/
def Obligations.WrittenOutWordsDecode : Prop :=
  decodeTableWord 24 0x310306 = some .readLevel ∧
  decode ⟨.outbound, [0x31, 0x03, 0x17, 0x02, 0x1D]⟩ = .ok (.setMode 2) ∧
  decode ⟨.inbound, [0x3E, 0x03, 0x06, 0x30, 0x10, 0x20, 0x20, 0x30, 0xE7]⟩ =
    .ok (.rspReading ⟨0x3E, 0x03, 0x30, 0x2010, 0x3020, [], 0xE7⟩) ∧
  decodeTableWord 8 0x02 = some .tick ∧
  decode ⟨.event, [0x18, 0x85]⟩ = .ok (.tempSm 0x85)

/-- A step with a delivery whose packet decodes is `exec` of the decoded row, with the delivery consumed and its draws
current (43_polling_fsm R180, 00_scope R14). The second clause is the model's choice: a word of the opcode table, placed as
the next delivery with the draws State holds (log 4) and read as log 6 says, runs as exactly the row it decodes to. -/
def Obligations.StepRunsDecodedRow : Prop :=
  (∀ (s : State) (d : Delivery) (rest : List Delivery) (i : Instr),
    s.inbox = d :: rest → decode d.packet = .ok i →
      step s = exec i { s with inbox := rest, draws := d.draws }) ∧
  (∀ (s : State) (nbits w : Nat) (i : Instr),
    decodeTableWord nbits w = some i → step (s.withFetchWord nbits w) = exec i s)

/-- The model's choice (logs 3, 4 and 5): with no delivery a step changes nothing, and a packet that is no row is refused
by the reason's name. -/
def Obligations.StepWithoutRow : Prop :=
  (∀ s : State, s.inbox = [] → step s = .next s) ∧
  (∀ (s : State) (d : Delivery) (rest : List Delivery) (e : DecodeError),
    s.inbox = d :: rest → decode d.packet = .error e → step s = .refused (.undecodable e))

/-! ### Reset -/

/-- Power-on reset leaves the four engine fields and the two marks as 10_state R37 and 70_reset_and_hazards R250 say. -/
def Obligations.PowerOnResetState : Prop :=
  State.reset.link = .closed ∧ State.reset.phase = .awaitingFirstPoll ∧ State.reset.addr = none ∧
  State.reset.info = none ∧ State.reset.faultMark = none ∧ State.reset.refusedMark = false

/-- The two invariants hold at reset. The trace is empty at reset by log 10. -/
def Obligations.ResetMeetsInvariants : Prop :=
  SessionInv State.reset ∧ PortsInv State.reset

/-! ### Checksum Unit -/

/-- CRC_STEP answers the table entry at `c xor b`, and nothing else changes; `CRC_STEP(c, c) = T[0]` and `CRC_STEP(0, b)
= T[b]` (40_checksum R100). The answer in `result` is the model's (log 11). -/
def Obligations.CrcStepAnswersTableEntry : Prop :=
  ∀ (s : State) (c b : Byte),
    exec (.crcStep c b) s = .next { s with result := some (.byte (s.crcTable.get (c ^^^ b).toFin)) } ∧
    exec (.crcStep c c) s = .next { s with result := some (.byte (s.crcTable.get 0)) } ∧
    exec (.crcStep 0 b) s = .next { s with result := some (.byte (s.crcTable.get b.toFin)) }

/-- CRC8 answers, for every byte sequence, the value that is 0 on the empty one, `T[b]` on one byte, and one CRC_STEP
further on one byte more; nothing else changes (40_checksum R101). The answer in `result` is the model's (log 11). -/
def Obligations.Crc8AnswersByteByByte : Prop :=
  ∀ s : State, ∃ F : List Byte → Byte,
    (∀ bs, exec (.crc8 bs) s = .next { s with result := some (.byte (F bs)) }) ∧
    F [] = 0 ∧ (∀ b, F [b] = s.crcTable.get b.toFin) ∧
    (∀ xs b, F (xs ++ [b]) = s.crcTable.get (F xs ^^^ b).toFin)

/-- An appended checksum makes a valid frame, and the checksum over the whole frame is then `T[0]` (40_checksum R104,
R105). -/
def Obligations.AppendedChecksumIsValidWithConstantResidue : Prop :=
  ∀ (T : CrcTable) (body : List Byte),
    appendCrc T body = body ++ [crc8 T body] ∧ frameOk T (appendCrc T body) = true ∧
    crc8 T (appendCrc T body) = T.get 0

/-- Under a bijective table each step is injective in either operand, and changing any one byte of a sequence changes
its checksum (40_checksum R107). -/
def Obligations.BijectiveTableDetectsOneByteChange : Prop :=
  ∀ T : CrcTable, Function.Bijective (fun i : Fin 256 => T.get i) →
    (∀ b, Function.Injective fun c => crcStep T c b) ∧ (∀ c, Function.Injective fun b => crcStep T c b) ∧
    ∀ (pre post : List Byte) (x y : Byte), x ≠ y → crc8 T (pre ++ x :: post) ≠ crc8 T (pre ++ y :: post)

/-! ### Frame Codec: ENCODE and the extractors -/

/-- ENCODE answers `0x31, addr, op`, the parameter if there is one, and the checksum of these: 4 bytes or 5, valid for
every operand; nothing else changes (41_frame_codec R120, R121). The answer in `result` is the model's (log 11). -/
def Obligations.EncodeBuildsChecksummedFrame : Prop :=
  ∀ (s : State) (addr op : Byte) (param : Option Byte), ∃ f,
    exec (.encode addr op param) s = .next { s with result := some (.bytes f) } ∧
    f = [0x31, addr, op] ++ param.toList ++ [crc8 s.crcTable ([0x31, addr, op] ++ param.toList)] ∧
    f.length = (if param.isNone then 4 else 5) ∧ frameOk s.crcTable f = true

/-- TEMP_SM answers the low seven bits, negated when bit 7 is set, a value in [-127, 127]; nothing else changes
(41_frame_codec R125). The answer in `result` is the model's (log 11). -/
def Obligations.TempSmAnswersSignAndMagnitude : Prop :=
  ∀ (s : State) (b : Byte), ∃ v : Int,
    exec (.tempSm b) s = .next { s with result := some (.int v) } ∧
    v = (if b.toNat < 128 then (b.toNat : Int) else -((b.toNat : Int) - 128)) ∧ -127 ≤ v ∧ v ≤ 127

/-- U16LE and U24LE answer the bytes at their offset, wherever they stand in the frame, the lower offset less
significant and never negative; nothing else changes (41_frame_codec R126, R129). The answer in `result` is the model's
(log 11). -/
def Obligations.UnsignedExtractorsReadLittleEndian : Prop :=
  ∀ (s : State) (pre post : List Byte) (b0 b1 b2 : Byte),
    exec (.u16le (pre ++ b0 :: b1 :: post) pre.length) s =
      .next { s with result := some (.nat (b0.toNat ||| b1.toNat <<< 8)) } ∧
    exec (.u24le (pre ++ b0 :: b1 :: b2 :: post) pre.length) s =
      .next { s with result := some (.nat (b0.toNat ||| b1.toNat <<< 8 ||| b2.toNat <<< 16)) } ∧
    (b0.toNat ||| b1.toNat <<< 8) ≤ 65535 ∧ (b0.toNat ||| b1.toNat <<< 8 ||| b2.toNat <<< 16) ≤ 16777215

/-- I16LE and I8 answer the two's-complement value of the bytes at their offset; nothing else changes (41_frame_codec
R127, R128). The answer in `result` is the model's (log 11). -/
def Obligations.SignedExtractorsReadTwosComplement : Prop :=
  ∀ (s : State) (pre post : List Byte) (b0 b1 : Byte),
    exec (.i16le (pre ++ b0 :: b1 :: post) pre.length) s =
      .next { s with result := some (.int (b1 ++ b0 : BitVec 16).toInt) } ∧
    exec (.i8 (pre ++ b0 :: post) pre.length) s = .next { s with result := some (.int b0.toInt) }

/-- TEXT answers the raw bytes between its offsets, every byte value kept; nothing else changes (41_frame_codec R130).
For offsets that cross, no byte lies between them (log 28). The answer in `result` is the model's (log 11). -/
def Obligations.TextAnswersRawBytes : Prop :=
  (∀ (s : State) (pre mid post : List Byte),
    exec (.text (pre ++ mid ++ post) pre.length (pre.length + mid.length)) s =
      .next { s with result := some (.bytes mid) }) ∧
  (∀ (s : State) (f : List Byte) (a b : Nat), b ≤ a → b ≤ f.length →
    exec (.text f a b) s = .next { s with result := some (.bytes []) })

/-- The model's choice (log 13): a free-standing extractor whose bytes do not all lie in the frame faults by that
name. -/
def Obligations.ExtractorOutsideFrameFaults : Prop :=
  ∀ (s : State) (f : List Byte) (off a : Nat),
    (f.length < off + 2 → exec (.u16le f off) s = .fault .offsetOutsideFrame ∧
      exec (.i16le f off) s = .fault .offsetOutsideFrame) ∧
    (f.length < off + 1 → exec (.i8 f off) s = .fault .offsetOutsideFrame) ∧
    (f.length < off + 3 → exec (.u24le f off) s = .fault .offsetOutsideFrame) ∧
    (f.length < off → exec (.text f a off) s = .fault .offsetOutsideFrame)

/-! ### Scaling Function -/

/-- CLAMP answers `max (min x hi) lo`: inside the range when the range is not inverted, and then in either order of the
two steps; `lo` for every `x` when it is inverted; nothing else changes (42_scaling R160). The answer in `result` is the
model's (log 11). -/
def Obligations.ClampAnswersUpperThenLower : Prop :=
  ∀ (s : State) (x lo hi : Rat), ∃ r : Rat,
    exec (.clamp x lo hi) s = .next { s with result := some (.rat r) } ∧ r = max (min x hi) lo ∧
    (lo ≤ hi → lo ≤ r ∧ r ≤ hi ∧ r = min (max x lo) hi) ∧ (hi < lo → r = lo)

/-- SCALE on unequal input bounds answers the linear map of the clamped value: `outMin` at `inMin`, `outMax` at `inMax`,
and `outMin` for every `x` when the input range is inverted; nothing else changes (42_scaling R161, R163). The answer in
`result` is the model's (log 11). -/
def Obligations.ScaleAnswersLinearMap : Prop :=
  ∀ (s : State) (x inMin inMax outMin outMax : Rat), inMax ≠ inMin → ∃ r : Rat,
    exec (.scale x inMin inMax outMin outMax) s = .next { s with result := some (.rat r) } ∧
    r = (outMax - outMin) / (inMax - inMin) * (max (min x inMax) inMin - inMin) + outMin ∧
    (x = inMin → inMin < inMax → r = outMin) ∧ (x = inMax → inMin < inMax → r = outMax) ∧
    (inMax < inMin → r = outMin)

/-- SCALE on equal input bounds is the model fault SCALE_DEGENERATE, with no value, and it sets the mark `fault`
(42_scaling R162, 60_exceptions R229). -/
def Obligations.DegenerateScaleFaults : Prop :=
  ∀ (s : State) (x m outMin outMax : Rat),
    exec (.scale x m m outMin outMax) s = .fault (.scaleDegenerate m) ∧
    markedState s (exec (.scale x m m outMin outMax) s) = { s with faultMark := some (.scaleDegenerate m) }

/-- ROUND2C answers the integer `floor(100 q + 1/2)`; nothing else changes (42_scaling R164). The answer in `result` is
the model's (log 11). -/
def Obligations.Round2cAnswersNearestHundredth : Prop :=
  ∀ (s : State) (q : Rat), ∃ n : Int,
    exec (.round2c q) s = .next { s with result := some (.int n) } ∧
    (n : Rat) ≤ 100 * q + 1 / 2 ∧ 100 * q + 1 / 2 < n + 1

/-- FUEL answers the closed form, which is ROUND2C of SCALE at the fuel constants; that scaled value is never a tie, its
hundredths being no nearer to one than 1/182, for every raw level; nothing else changes (42_scaling R165, R166). The answer
in `result` is the model's (log 11). -/
def Obligations.FuelAnswersClosedForm : Prop :=
  ∀ (s : State) (raw : BitVec 16), ∃ q : Rat,
    scale raw.toNat 0 4095 0 18 = some q ∧
    round2c q = ((80 * min raw.toNat 4095 + 91) / 182 : Nat) ∧
    exec (.fuel raw) s = .next { s with result := some (.nat ((80 * min raw.toNat 4095 + 91) / 182)) } ∧
    ∀ n : Int, 1 / 182 ≤ |100 * q - (n + 1 / 2)|

/-- SCALE at the fuel constants does not decrease over [0, 4095], is 0 at 0 and below, and 18 at 4095 and above; FUEL does
not decrease (42_scaling R167). -/
def Obligations.FuelScaleIsMonotone : Prop :=
  (∀ x y : Rat, 0 ≤ x → x ≤ y → y ≤ 4095 →
    ∃ p q : Rat, scale x 0 4095 0 18 = some p ∧ scale y 0 4095 0 18 = some q ∧ p ≤ q) ∧
  scale 0 0 4095 0 18 = some 0 ∧ scale 4095 0 4095 0 18 = some 18 ∧
  scale (-5) 0 4095 0 18 = scale 0 0 4095 0 18 ∧ scale 5000 0 4095 0 18 = scale 4095 0 4095 0 18 ∧
  (∀ x : Rat, x ≤ 0 → scale x 0 4095 0 18 = some 0) ∧ (∀ x : Rat, 4095 ≤ x → scale x 0 4095 0 18 = some 18) ∧
  ∀ r1 r2 : Nat, r1 ≤ r2 → fuel r1 ≤ fuel r2

/-! ### Connection -/

/-- CONNECT on a closed link with a legal CFG_ADDRESS and a successful open: the link opens, the polling state is
AwaitingFirstPoll, CFG_ADDRESS is latched, the session record is cleared, the timer is armed with CFG_POLL_MS or
POLL_DEFAULT_MS, and the status is OK with no output (43_polling_fsm R181, 10_state R38). `timer` and `calls` record
what the rule tells the platform (logs 15 and 16). -/
def Obligations.ConnectOpensConnection : Prop :=
  ∀ (s : State) (v : Int), s.link = .closed → s.cfg.address = .integer v → 0 ≤ v → v ≤ 255 → s.draws.openOk = true →
    completesIn .connect s
      { s with
        link := .opened, phase := .awaitingFirstPoll, addr := some (BitVec.ofInt 8 v), info := none
        timer := some (match s.cfg.pollMs with | some ms => ms | none => s.cfg.pollDefaultMs)
        calls := s.calls ++ [.openPort s.cfg.port s.cfg.baud true]
        trace := s.trace ++ [⟨.event 0x01, [], .ok⟩] }

/-- CONNECT whose open fails leaves the engine state as it was, with status FAULT_TRANSPORT_OPEN and no output
(43_polling_fsm R182). `calls` records the call of the transport (log 16). -/
def Obligations.FailedOpenChangesNoEngineState : Prop :=
  ∀ (s : State) (v : Int), s.link = .closed → s.cfg.address = .integer v → 0 ≤ v → v ≤ 255 → s.draws.openOk = false →
    completesIn .connect s
      { s with
        calls := s.calls ++ [.openPort s.cfg.port s.cfg.baud false]
        trace := s.trace ++ [⟨.event 0x01, [], .faultTransportOpen⟩] }

/-- The refusals by their reasons, each setting the mark `refused` and nothing else: CONNECT on an open link; CONNECT
whose CFG_ADDRESS is no integer in 0..255, on a closed link (on an open one the first reason is given, and on a closed
one the draw is not looked at: the model's choice, log 18); a USER
operand that is no integer, on an open link (60_exceptions R230, 43_polling_fsm R183, R188). -/
def Obligations.RefusalsByReason : Prop :=
  ∀ s : State,
    (s.link = .opened → exec .connect s = .refused .connectWhileOpen) ∧
    (s.link = .closed → (∀ v, s.cfg.address = .integer v → v < 0 ∨ 255 < v) →
      exec .connect s = .refused .cfgAddressOutOfRange) ∧
    (s.link = .opened →
      exec (.userMode .notInteger) s = .refused .userValueNotInteger ∧
      exec (.userInterval .notInteger) s = .refused .userValueNotInteger ∧
      exec (.userFilter .notInteger) s = .refused .userValueNotInteger) ∧
    ∀ (i : Instr) (r : Refusal), exec i s = .refused r → markedState s (exec i s) = { s with refusedMark := true }

/-- CLOSE, in either link state: the link closes, the timer is disarmed and the transport closed, the status is OK, and
the polling state, the address and the session record keep their values (43_polling_fsm R196). `timer` and `calls`
record what the rule tells the platform (logs 15 and 16). -/
def Obligations.CloseOnlyClosesTheLink : Prop :=
  ∀ s : State,
    completesIn .close s
      { s with
        link := .closed, timer := none, calls := s.calls ++ [.closePort]
        trace := s.trace ++ [⟨.event 0x08, [], .ok⟩] }

/-! ### Events while the link is closed -/

/-- While the link is closed, TICK, every USER event and RX end with IGNORED_LINK_CLOSED and their tag, with no output and
no other change, whatever their operand (43_polling_fsm R184, R188, R195; 60_exceptions R227). -/
def Obligations.ClosedLinkIgnoresEvents : Prop :=
  ∀ s : State, s.link = .closed →
    let ignored (tag : Byte) : State := { s with trace := s.trace ++ [⟨.event tag, [], .ignoredLinkClosed tag⟩] }
    completesIn .tick s (ignored 0x02) ∧ completesIn .userPeriodic s (ignored 0x03) ∧
    (∀ v, completesIn (.userMode v) s (ignored 0x04)) ∧ (∀ v, completesIn (.userInterval v) s (ignored 0x05)) ∧
    (∀ v, completesIn (.userFilter v) s (ignored 0x06)) ∧ (∀ f, completesIn (.rx f) s (ignored 0x07))

/-- While the link is closed, a command row sends nothing and ends as the event that sends it would, and a response row
ends as RX (70_reset_and_hazards R254, 60_exceptions R227; the rows' meanings are logs 7 and 8). -/
def Obligations.ClosedLinkIgnoresFrameRows : Prop :=
  ∀ s : State, s.link = .closed →
    let ignored (src : Source) (tag : Byte) : State := { s with trace := s.trace ++ [⟨src, [], .ignoredLinkClosed tag⟩] }
    completesIn .readLevel s (ignored (.command 0x06) 0x02) ∧ completesIn .readInfo s (ignored (.command 0x10) 0x02) ∧
    completesIn .reqPeriodic s (ignored (.command 0x07) 0x03) ∧
    (∀ p, completesIn (.setMode p) s (ignored (.command 0x17) 0x04)) ∧
    (∀ p, completesIn (.setInterval p) s (ignored (.command 0x13) 0x05)) ∧
    (∀ p, completesIn (.setFilter p) s (ignored (.command 0x0E) 0x06)) ∧
    (∀ f, completesIn (.rspReading f) s (ignored (.event 0x07) 0x07)) ∧
    (∀ f, completesIn (.rspInfo f) s (ignored (.event 0x07) 0x07)) ∧
    (∀ f, completesIn (.rspOther f) s (ignored (.event 0x07) 0x07))

/-! ### Sending -/

/-- The first TICK of an open connection attempts one write, READ_INFO to the latched address, and the polling state
becomes SteadyPolling whatever the draw (43_polling_fsm R185, R187). -/
def Obligations.FirstTickSendsReadInfo : Prop :=
  ∀ (s : State) (a : Byte), s.link = .opened → s.phase = .awaitingFirstPoll → s.addr = some a →
    completesSending .tick s (.event 0x02) [0x31, a, 0x10, crc8 s.crcTable [0x31, a, 0x10]]
      { s with phase := .steadyPolling }

/-- A later TICK of an open connection attempts one write, READ_LEVEL to the latched address, and the polling state stays
(43_polling_fsm R186, R187). -/
def Obligations.SteadyTickSendsReadLevel : Prop :=
  ∀ (s : State) (a : Byte), s.link = .opened → s.phase = .steadyPolling → s.addr = some a →
    completesSending .tick s (.event 0x02) [0x31, a, 0x06, crc8 s.crcTable [0x31, a, 0x06]] s

/-- USER_PERIODIC on an open link attempts one write, REQ_PERIODIC to the latched address (43_polling_fsm R189, R187). -/
def Obligations.UserPeriodicSendsReqPeriodic : Prop :=
  ∀ (s : State) (a : Byte), s.link = .opened → s.addr = some a →
    completesSending .userPeriodic s (.event 0x03) [0x31, a, 0x07, crc8 s.crcTable [0x31, a, 0x07]] s

/-- USER_MODE v on an open link attempts one write, SET_MODE with v clamped to [0, 2] (43_polling_fsm R190, R187). -/
def Obligations.UserModeSendsClampedMode : Prop :=
  ∀ (s : State) (a p : Byte) (v : Int), s.link = .opened → s.addr = some a →
    (p.toNat : Int) = (if v ≤ 0 then 0 else if 2 ≤ v then 2 else v) →
    completesSending (.userMode (.integer v)) s (.event 0x04)
      [0x31, a, 0x17, p, crc8 s.crcTable [0x31, a, 0x17, p]] s

/-- USER_INTERVAL v on an open link attempts one write, SET_INTERVAL with v clamped to [0, 255] (43_polling_fsm R191,
R187). -/
def Obligations.UserIntervalSendsClampedInterval : Prop :=
  ∀ (s : State) (a p : Byte) (v : Int), s.link = .opened → s.addr = some a →
    (p.toNat : Int) = (if v < 0 then 0 else if 255 < v then 255 else v) →
    completesSending (.userInterval (.integer v)) s (.event 0x05)
      [0x31, a, 0x13, p, crc8 s.crcTable [0x31, a, 0x13, p]] s

/-- USER_FILTER v on an open link attempts one write, SET_FILTER with v clamped to [0, 20] (43_polling_fsm R192,
R187). -/
def Obligations.UserFilterSendsClampedDepth : Prop :=
  ∀ (s : State) (a p : Byte) (v : Int), s.link = .opened → s.addr = some a →
    (p.toNat : Int) = (if v < 0 then 0 else if 20 < v then 20 else v) →
    completesSending (.userFilter (.integer v)) s (.event 0x06)
      [0x31, a, 0x0E, p, crc8 s.crcTable [0x31, a, 0x0E, p]] s

/-- A command row on an open link attempts one write, and the frame written is the row's own packet for the latched
address and the machine's table; a parameter past its range is sent as the range's end (30_encoding R71, R72, R77, R86).
That a command row is the sending half of its event is log 7. -/
def Obligations.CommandRowsSendTheirPacket : Prop :=
  ∀ (s : State) (a : Byte), s.link = .opened → s.addr = some a →
    let frame (i : Instr) : List Byte := (encode s.crcTable a i).bytes
    completesSending .readLevel s (.command 0x06) (frame .readLevel) s ∧
    completesSending .readInfo s (.command 0x10) (frame .readInfo) s ∧
    completesSending .reqPeriodic s (.command 0x07) (frame .reqPeriodic) s ∧
    (∀ p : Byte, completesSending (.setMode p) s (.command 0x17) (frame (.setMode (if p ≤ 2 then p else 2))) s) ∧
    (∀ p : Byte, completesSending (.setInterval p) s (.command 0x13) (frame (.setInterval p)) s) ∧
    (∀ p : Byte, completesSending (.setFilter p) s (.command 0x0E) (frame (.setFilter (if p ≤ 20 then p else 20))) s)

/-- The model's choice (log 12): with the link open and no latched address, a state the session invariant rules out,
every row that sends faults by that name. -/
def Obligations.SendWithoutLatchedAddressFaults : Prop :=
  ∀ (s : State) (p : Byte) (v : Int), s.link = .opened → s.addr = none →
    ∀ i ∈ [Instr.readLevel, .readInfo, .reqPeriodic, .setMode p, .setInterval p, .setFilter p, .tick, .userPeriodic,
        .userMode (.integer v), .userInterval (.integer v), .userFilter (.integer v)],
      exec i s = .fault .addressNotLatched

/-! ### Receiving -/

/-- RSP_READING on an open link with a valid checksum: one SINK of the reading its fields give, status DEC_READING, and
no other change; a longer frame's extra bytes and offsets 0 and 1 do not matter (41_frame_codec R140, R144). That the
row is the frame's arrival is log 8. -/
def Obligations.ReadingFrameIsDelivered : Prop :=
  ∀ (s : State) (fr : ReadingFrame), s.link = .opened →
    fr.checksum = crc8 s.crcTable (readingFrameBytes fr).dropLast →
    let r : Reading :=
      { temperature :=
          if fr.temperature.toNat < 128 then (fr.temperature.toNat : Int) else -((fr.temperature.toNat : Int) - 128)
        rawLevel := fr.rawLevel.toNat
        fuelCenti := (80 * min fr.rawLevel.toNat 4095 + 91) / 182
        frequencyValue := fr.frequencyValue.toNat }
    completesIn (.rspReading fr) s
      { s with trace := s.trace ++ [⟨.event 0x07, [.sink (.reading r)], .decReading r⟩] }

/-- RSP_INFO on an open link with a valid checksum: the record its fields give replaces the session record whole and is
the one SINK, status DEC_INFO, and no other change (41_frame_codec R141, R144). That the row is the frame's arrival is
log 8. -/
def Obligations.InfoFrameIsStoredAndDelivered : Prop :=
  ∀ (s : State) (fr : InfoFrame), s.link = .opened → (Instr.rspInfo fr).fitsLayout = true →
    fr.checksum = crc8 s.crcTable (infoFrameBytes fr).dropLast →
    let r : DeviceInfo :=
      { model := fr.model, firmwareVersion := fr.firmwareVersion
        mode := fr.mode.toInt, interval := fr.interval.toInt, filterDepth := fr.filterDepth.toInt
        calibrationMin := fr.calibrationMin.toInt, calibrationMax := fr.calibrationMax.toInt
        counter1 := fr.counter1.toNat, counter2 := fr.counter2.toNat }
    completesIn (.rspInfo fr) s
      { s with
        info := some r
        trace := s.trace ++ [⟨.event 0x07, [.sink (.deviceInfo r)], .decInfo r⟩] }

/-- RSP_OTHER on an open link with a valid checksum is accepted and ignored: no SINK and no change but the status
ACCEPT_UNRECOGNIZED with its type (41_frame_codec R142). That the row is the frame's arrival is log 8. -/
def Obligations.OtherFrameIsAcceptedAndIgnored : Prop :=
  ∀ (s : State) (fr : OtherFrame), s.link = .opened → (Instr.rspOther fr).fitsLayout = true →
    fr.checksum = crc8 s.crcTable (otherFrameBytes fr).dropLast →
    completesIn (.rspOther fr) s { s with trace := s.trace ++ [⟨.event 0x07, [], .acceptUnrecognized fr.kind⟩] }

/-- RX of any frame on an open link, its checks in order: too short, then bad checksum with the computed and the
received byte, then by the type at offset 2 too short for it, decoded, or unrecognized; a dropped or unrecognized frame
has no output and changes nothing but the status (60_exceptions R231, 41_frame_codec R136, R137, R142, R143). -/
def Obligations.RxChecksInOrder : Prop :=
  ∀ (s : State) (f : List Byte), s.link = .opened →
    let n := f.length
    let ended (st : Status) : State := { s with trace := s.trace ++ [⟨.event 0x07, [], st⟩] }
    (n < 4 → completesIn (.rx f) s (ended (.dropTooShort n))) ∧
    (∀ (body : List Byte) (c : Byte), f = body ++ [c] → 4 ≤ n → c ≠ crc8 s.crcTable body →
      completesIn (.rx f) s (ended (.dropBadChecksum (crc8 s.crcTable body) c))) ∧
    (4 ≤ n → frameOk s.crcTable f = true → ∀ t, f[2]? = some t →
      (t = 0x06 → n < 9 → completesIn (.rx f) s (ended (.dropShortForType 0x06 n))) ∧
      (t = 0x06 → 9 ≤ n → ∃ r, completesIn (.rx f) s
        { s with trace := s.trace ++ [⟨.event 0x07, [.sink (.reading r)], .decReading r⟩] }) ∧
      (t = 0x10 → n < 44 → completesIn (.rx f) s (ended (.dropShortForType 0x10 n))) ∧
      (t = 0x10 → 44 ≤ n → ∃ r, completesIn (.rx f) s
        { s with info := some r, trace := s.trace ++ [⟨.event 0x07, [.sink (.deviceInfo r)], .decInfo r⟩] }) ∧
      (t ≠ 0x06 → t ≠ 0x10 → completesIn (.rx f) s (ended (.acceptUnrecognized t))))

/-- A valid frame, its last byte altered to any other value, is no longer valid and is dropped on an open link: no SINK
and no change but the status, which is DROP_BAD_CHECKSUM from 4 bytes on and DROP_TOO_SHORT below, for every table
(40_checksum R106, 41_frame_codec R136, R137). -/
def Obligations.AlteredLastByteIsDropped : Prop :=
  ∀ (s : State) (body : List Byte) (c : Byte), s.link = .opened → c ≠ crc8 s.crcTable body →
    let st : Status :=
      if body.length < 3 then .dropTooShort (body.length + 1) else .dropBadChecksum (crc8 s.crcTable body) c
    frameOk s.crcTable (appendCrc s.crcTable body) = true ∧ frameOk s.crcTable (body ++ [c]) = false ∧
    completesIn (.rx (body ++ [c])) s { s with trace := s.trace ++ [⟨.event 0x07, [], st⟩] }

/-- DECODE completes on every frame in every state; its outcome is a function of the frame and the table alone; it writes
the session record on a device-info outcome and no other engine field ever; it emits one SINK of a decoded record and
none otherwise (41_frame_codec R145, R148). The answer in `result` is the model's (log 11). -/
def Obligations.DecodeOutcomeDependsOnFrameAndTableOnly : Prop :=
  ∀ T : CrcTable, ∃ D : List Byte → DecodeOutcome, ∀ (s : State) (f : List Byte), s.crcTable = T →
    completesIn (.decode f) s
      { s with
        info := (match D f with | .deviceInfo r => some r | _ => s.info)
        result := some (.decoded (D f))
        trace := s.trace ++
          [⟨.operation 0x13,
            (match D f with | .reading r => [.sink (.reading r)] | .deviceInfo r => [.sink (.deviceInfo r)] | _ => []),
            (D f).status⟩] }

/-- RX on an open link and DECODE leave the same engine state and the same outputs and status (43_polling_fsm R194).
That the free-standing DECODE has its effects too is log 11. -/
def Obligations.RxIsDecodeWhileOpen : Prop :=
  ∀ (s : State) (f : List Byte), s.link = .opened → ∃ t u e e',
    exec (.rx f) s = .next t ∧ exec (.decode f) s = .next u ∧
    t.trace = s.trace ++ [e] ∧ u.trace = s.trace ++ [e'] ∧ e.outputs = e'.outputs ∧ e.status = e'.status ∧
    t.info = u.info ∧ t.link = u.link ∧ t.phase = u.phase ∧ t.addr = u.addr

/-! ### Rules over all rows -/

/-- The polling state changes only by CONNECT, to AwaitingFirstPoll, and by a TICK on an open link in AwaitingFirstPoll,
to SteadyPolling (10_state R24). -/
def Obligations.OnlyConnectAndTickWritePhase : Prop :=
  ∀ (i : Instr) (s t : State), exec i s = .next t → t.phase ≠ s.phase →
    (i = .connect ∧ s.link = .closed ∧ t.phase = .awaitingFirstPoll) ∨
    (i = .tick ∧ s.link = .opened ∧ s.phase = .awaitingFirstPoll ∧ t.phase = .steadyPolling)

/-- The latched address changes only by CONNECT, to CFG_ADDRESS (10_state R25). -/
def Obligations.OnlyConnectWritesAddress : Prop :=
  ∀ (i : Instr) (s t : State), exec i s = .next t → t.addr ≠ s.addr →
    i = .connect ∧ ∃ v : Int, 0 ≤ v ∧ v ≤ 255 ∧ s.cfg.address = .integer v ∧ t.addr = some (BitVec.ofInt 8 v)

/-- The link opens only by a successful CONNECT and closes only by CLOSE or by a failed write, whose status the step
records (10_state R23). -/
def Obligations.LinkWriters : Prop :=
  ∀ (i : Instr) (s t : State), exec i s = .next t →
    (s.link = .closed → t.link = .opened → i = .connect ∧ s.draws.openOk = true) ∧
    (s.link = .opened → t.link = .closed → i = .close ∨
      (s.draws.txOk = false ∧ ∃ e f, t.trace = s.trace ++ [e] ∧ e.status = .faultTransportWrite f))

/-- The session record changes only by CONNECT, to none, and by a device-info decode, to the decoded record (10_state
R26). -/
def Obligations.SessionRecordWriters : Prop :=
  ∀ (i : Instr) (s t : State), exec i s = .next t → t.info ≠ s.info →
    (i = .connect ∧ t.info = none) ∨
    (∃ r e, t.info = some r ∧ t.trace = s.trace ++ [e] ∧ e.status = .decInfo r)

/-- USER events leave the polling state, the address and the session record as they were, and an open link closes in
them only by a failed write (43_polling_fsm R193). -/
def Obligations.UserEventsKeepSession : Prop :=
  ∀ (i : Instr) (s t : State), (i = .userPeriodic ∨ ∃ v, i = .userMode v ∨ i = .userInterval v ∨ i = .userFilter v) →
    exec i s = .next t →
    t.phase = s.phase ∧ t.addr = s.addr ∧ t.info = s.info ∧ (t.link ≠ s.link → t.link = .closed ∧ s.draws.txOk = false)

/-- No step writes the checksum table, a configuration register or a bookkeeping mark (10_state R32, R39, R40). -/
def Obligations.NoStepWritesTableConfigurationOrMarks : Prop :=
  ∀ s t : State, step s = .next t →
    t.crcTable = s.crcTable ∧ t.cfg = s.cfg ∧ t.faultMark = s.faultMark ∧ t.refusedMark = s.refusedMark

/-- Every event that completes ends with exactly one trace entry; its SINK emissions are one for DEC_READING and
DEC_INFO and none for any other status, and a transport fault leaves the link closed (60_exceptions R220, R221, R226). -/
def Obligations.EveryEventEndsWithOneStatus : Prop :=
  ∀ (i : Instr) (s t : State), isEvent i = true → exec i s = .next t → ∃ e,
    t.trace = s.trace ++ [e] ∧ (e.outputs.filter Emission.isSink).length = e.status.sinkCount ∧
    (e.status.classOf = .transportFault → t.link = .closed)

/-- Under the session invariant no event ends in a fault: SCALE_DEGENERATE arises only in the free-standing SCALE
(60_exceptions R229), and an open link always has a latched address (10_state R25). -/
def Obligations.EventsNeverFault : Prop :=
  ∀ (i : Instr) (s : State) (r : Fault), SessionInv s → isEvent i = true → exec i s ≠ .fault r

/-! ### Invariants and runs -/

/-- Every step keeps the session invariant: an open link has a latched address and an armed timer, a latched address is
CFG_ADDRESS, a stored record is in range. -/
def Obligations.StepKeepsSessionInvariant : Prop :=
  ∀ s t : State, SessionInv s → step s = .next t → SessionInv t

/-- Every step keeps the ports invariant: every write attempted is one of the six commands to CFG_ADDRESS with its
parameter in range and its checksum, and every record handed to the sink is in range. -/
def Obligations.StepKeepsPortsInvariant : Prop :=
  ∀ s t : State, SessionInv s → PortsInv s → step s = .next t → PortsInv t

/-- After a successful CONNECT, over any rows up to the next CONNECT, with any draws, the frames the TICKs emit are READ_INFO
first and READ_LEVEL for every later one; while the link stays open to the end, every TICK has emitted one, however many
TICKs there are (43_polling_fsm R197). -/
def Obligations.FirstTickReadsInfoLaterTicksReadLevel : Prop :=
  ∀ (s t : State) (d : Draws) (a : Byte) (rows : List (Instr × Draws)),
    s.link = .closed → legalAddress s.cfg.address = some a → d.openOk = true →
    (∀ p ∈ rows, p.1 ≠ .connect) →
    runRows ((.connect, d) :: rows) s = .next t →
    ∃ m ≤ (rows.filter fun p => p.1 == .tick).length,
      tickFrames (t.trace.drop s.trace.length) =
        (if m = 0 then []
        else [0x31, a, 0x10, crc8 s.crcTable [0x31, a, 0x10]]
          :: List.replicate (m - 1) [0x31, a, 0x06, crc8 s.crcTable [0x31, a, 0x06]]) ∧
      (t.link = .opened → m = (rows.filter fun p => p.1 == .tick).length)

/-- After a successful CONNECT, over any rows up to the next CONNECT, every frame emitted carries at offset 1 the
CFG_ADDRESS that CONNECT latched (43_polling_fsm R198). -/
def Obligations.EveryFrameCarriesLatchedAddress : Prop :=
  ∀ (s t : State) (d : Draws) (v : Int) (rows : List (Instr × Draws)),
    s.link = .closed → s.cfg.address = .integer v → 0 ≤ v → v ≤ 255 → d.openOk = true →
    (∀ p ∈ rows, p.1 ≠ .connect) →
    runRows ((.connect, d) :: rows) s = .next t →
    t.addr = some (BitVec.ofInt 8 v) ∧
    ∀ e ∈ t.trace.drop s.trace.length, ∀ f ∈ e.frames, f[1]? = some (BitVec.ofInt 8 v)

/-- Within one connection (rows without CONNECT) the polling state moves at most once: it stays AwaitingFirstPoll while no
TICK is handled, a TICK on the open link makes it SteadyPolling whatever the draw, and SteadyPolling stays (43_polling_fsm
R199, 10_state R24). -/
def Obligations.PollingStateMovesOnceAConnection : Prop :=
  (∀ (s t : State) (rows : List (Instr × Draws)), (∀ p ∈ rows, p.1 ≠ .connect ∧ p.1 ≠ .tick) →
    runRows rows s = .next t → t.phase = s.phase) ∧
  (∀ s : State, s.link = .opened → s.addr.isSome → ∃ t, exec .tick s = .next t ∧ t.phase = .steadyPolling) ∧
  (∀ (s t : State) (rows : List (Instr × Draws)), (∀ p ∈ rows, p.1 ≠ .connect) → s.phase = .steadyPolling →
    runRows rows s = .next t → t.phase = .steadyPolling)

/-! ### Script notation -/

/-- The pseudo-events are their expansions: `rxc` delivers RX of the frame with its checksum appended, which is valid, and
`poll n` delivers what n lines of `tick` deliver (30_encoding R85). -/
def Obligations.PseudoEventsAreTheirExpansions : Prop :=
  ∀ s : State,
    (∀ body, loadScript [.rxc body] s = loadScript [.rx (body ++ [crc8 s.crcTable body])] s ∧
      frameOk s.crcTable (body ++ [crc8 s.crcTable body]) = true) ∧
    (∀ n, loadScript [.poll n] s = loadScript (List.replicate n (.tick true)) s)

/-- A line of script words is read as its event with the draw its end gives: true with no suffix, false with the suffix
`!openfail` of a CONNECT or `!txfail` of a TICK or USER event (30_encoding R84). The line is delivered as one packet that
decodes to the event with its operand, with that draw. The model's choice: one other word after a CONNECT, TICK or USER
line, and one word after CLOSE, is refused (log 35); the packet's operand bytes are log 5; a draw that a line cannot name is
true (log 35). -/
def Obligations.ScriptLinesDeliverTheirEvents : Prop :=
  ∀ (T : CrcTable) (v : Int) (num : String) (f : List Byte) (hex : List String),
    decimalInt num = some v → hex.mapM hexByte = some f →
    let readAs (words : List String) (i : Instr) (d : Draws) : Prop :=
      ∃ l p, parseWords words = some l ∧ l.expand T = [⟨p, d⟩] ∧ decode p = .ok i
    let sends (words : List String) (i : Instr) : Prop :=
      readAs words i ⟨true, true⟩ ∧ readAs (words ++ ["!txfail"]) i ⟨true, false⟩ ∧
      ∀ w, w ≠ "!txfail" → parseWords (words ++ [w]) = none
    readAs ["connect"] .connect ⟨true, true⟩ ∧ readAs ["connect", "!openfail"] .connect ⟨false, true⟩ ∧
    (∀ w, w ≠ "!openfail" → parseWords ["connect", w] = none) ∧
    sends ["tick"] .tick ∧ sends ["user", "periodic"] .userPeriodic ∧
    sends ["user", "mode", num] (.userMode (.integer v)) ∧ sends ["user", "interval", num] (.userInterval (.integer v)) ∧
    sends ["user", "filter", num] (.userFilter (.integer v)) ∧
    readAs ("rx" :: hex) (.rx f) ⟨true, true⟩ ∧ readAs ["close"] .close ⟨true, true⟩ ∧
    ∀ w, parseWords ["close", w] = none
end

