-- ==== Sys2Proof/Laws/Codec.lean ====
section
/-! SUPPORT. Lemmas about the checksum, the frame writer and the frame reader. -/

namespace Sys2Proof.Machine

variable (T : CrcTable)

@[simp] theorem crc8_nil : crc8 T [] = 0 := rfl

@[simp] theorem crc8_append_byte (bs : List Byte) (b : Byte) : crc8 T (bs ++ [b]) = crcStep T (crc8 T bs) b := by
  simp [crc8]

/-- The checksum of a concatenation goes on from the checksum of its first part. -/
theorem crc8_append (xs ys : List Byte) : crc8 T (xs ++ ys) = ys.foldl (crcStep T) (crc8 T xs) := by
  simp [crc8]

@[simp] theorem crcStep_self (c : Byte) : crcStep T c c = T.get 0 := by
  simp [crcStep]

theorem frameOk_append_byte (body : List Byte) (c : Byte) : frameOk T (body ++ [c]) = (c == crc8 T body) := by
  simp [frameOk]

@[simp] theorem appendCrc_length (body : List Byte) : (appendCrc T body).length = body.length + 1 := by
  simp [appendCrc]

/-- ENCODE with no parameter writes the frame of format CMD4. -/
theorem encodeFrame_none (a op : Byte) : encodeFrame T a op none = cmd4Bytes T a op := by
  simp [encodeFrame, cmd4Bytes, memWrite, List.replicate]

/-- ENCODE with a parameter writes the frame of format CMD5. -/
theorem encodeFrame_some (a op p : Byte) : encodeFrame T a op (some p) = cmd5Bytes T a op p := by
  simp [encodeFrame, cmd5Bytes, memWrite, List.replicate]

@[simp] theorem memRead_zero (f : List Byte) (off : Nat) : memRead f off 0 = 0 := rfl

theorem memRead_succ (f : List Byte) (off n : Nat) :
    memRead f off (n + 1) = (byteAt f off).toNat + 256 * memRead f (off + 1) n := rfl

/-- MemRead of n bytes is below 256^n. -/
theorem memRead_lt (f : List Byte) (off n : Nat) : memRead f off n < 256 ^ n := by
  induction n generalizing off with
  | zero => simp
  | succ n ih =>
    have h := ih (off + 1)
    have hb : (byteAt f off).toNat < 256 := (byteAt f off).isLt
    rw [memRead_succ, Nat.pow_succ]
    omega

/-- A two's-complement value of N bits lies in its range. -/
theorem sext_range (n v : Nat) (hn : 0 < n) (hv : v < 2 ^ n) :
    -(2 ^ (n - 1) : Int) ≤ sext n v ∧ sext n v < 2 ^ (n - 1) := by
  obtain ⟨m, rfl⟩ : ∃ m, n = m + 1 := ⟨n - 1, by omega⟩
  simp only [Nat.add_sub_cancel] at *
  have hp : (2 : Nat) ^ (m + 1) = 2 * 2 ^ m := by rw [Nat.pow_succ]; omega
  have hpi : (2 : Int) ^ (m + 1) = 2 * 2 ^ m := by rw [pow_succ]; omega
  have hc : ((2 ^ m : Nat) : Int) = 2 ^ m := by push_cast; rfl
  unfold sext
  simp only [Nat.add_sub_cancel]
  by_cases hb : v.testBit m
  · have := Nat.ge_two_pow_of_testBit hb
    simp only [hb, if_true, hpi]
    omega
  · have hlt : v < 2 ^ m := by
      by_contra hge
      have h1 : v / 2 ^ m = 1 := by
        apply Nat.div_eq_of_lt_le <;> omega
      rw [Nat.testBit_eq_decide_div_mod_eq, h1] at hb
      simp at hb
    simp only [hb]
    simp
    omega

/-- The magnitude of a temperature byte is at most 127. -/
theorem tempSm_range (b : Byte) : -127 ≤ tempSm b ∧ tempSm b ≤ 127 := by
  have h : (b &&& 0x7F).toNat ≤ 127 := by
    rw [BitVec.toNat_and]
    exact Nat.and_le_right
  unfold tempSm
  simp only
  split <;> omega

theorem text_length (f : List Byte) (a b : Nat) (h : b ≤ f.length) : (text f a b).length = b - a := by
  simp [text]
  omega

/-- The bytes before an offset, then the byte at it. -/
theorem take_append_byteAt (f : List Byte) (k : Nat) (h : k < f.length) : f.take k ++ [byteAt f k] = f.take (k + 1) := by
  simp [byteAt, h]

/-- The bytes before an offset, then the text from it on. -/
theorem take_append_text (f : List Byte) (a b : Nat) (h : a ≤ b) : f.take a ++ text f a b = f.take b := by
  have ht : f.take a = (f.take b).take a := by rw [List.take_take, Nat.min_eq_left h]
  rw [text, ht, List.take_append_drop]

/-- A byte behind a first part of known length. -/
theorem byteAt_append_right (xs ys : List Byte) (k : Nat) : byteAt (xs ++ ys) (xs.length + k) = byteAt ys k := by
  unfold byteAt
  rw [List.getD_append_right _ _ _ _ (by omega), Nat.add_sub_cancel_left]

/-- A 16-bit wire integer, split again, is its two bytes. -/
theorem le16_wire16 (f : List Byte) (off : Nat) : le16 (wire16 f off) = [byteAt f off, byteAt f (off + 1)] := by
  unfold le16 wire16
  generalize byteAt f off = b0
  generalize byteAt f (off + 1) = b1
  simp only [List.cons.injEq, and_true]
  refine ⟨?_, ?_⟩ <;>
    apply BitVec.eq_of_toNat_eq <;>
    simp only [BitVec.extractLsb'_toNat, BitVec.toNat_append, Nat.shiftRight_eq_div_pow, Nat.shiftLeft_eq,
      Nat.mul_comm b1.toNat, ← Nat.two_pow_add_eq_or_of_lt b0.isLt] <;>
    have h0 := b0.isLt <;> have h1 := b1.isLt <;> omega

/-- A 24-bit wire integer, split again, is its three bytes. -/
theorem le24_wire24 (f : List Byte) (off : Nat) :
    le24 (wire24 f off) = [byteAt f off, byteAt f (off + 1), byteAt f (off + 2)] := by
  unfold le24 wire24
  generalize byteAt f off = b0
  generalize byteAt f (off + 1) = b1
  generalize byteAt f (off + 2) = b2
  have hn : (b2 ++ b1 ++ b0 : BitVec 24).toNat = 2 ^ 8 * (2 ^ 8 * b2.toNat + b1.toNat) + b0.toNat := by
    simp only [BitVec.toNat_append, Nat.shiftLeft_eq, Nat.mul_comm b2.toNat, ← Nat.two_pow_add_eq_or_of_lt b1.isLt]
    rw [Nat.mul_comm _ (2 ^ 8), ← Nat.two_pow_add_eq_or_of_lt b0.isLt]
  simp only [List.cons.injEq, and_true]
  refine ⟨?_, ?_, ?_⟩ <;>
    apply BitVec.eq_of_toNat_eq <;>
    simp only [BitVec.extractLsb'_toNat, hn, Nat.shiftRight_eq_div_pow] <;>
    have h0 := b0.isLt <;> have h1 := b1.isLt <;> have h2 := b2.isLt <;> omega

end Sys2Proof.Machine
end

