-- ==== Sys2Proof/Laws/Decode.lean ====
section
/-! SUPPORT. Each operand reader reads back what its writer wrote and leaves the bytes after it. -/

namespace Sys2Proof

@[simp] theorem readByte_cons (b : Byte) (rest : List Byte) : readByte (b :: rest) = .ok (b, rest) := rfl

@[simp] theorem finish_nil (i : Instr) : finish i [] = .ok i := rfl

theorem readNat_writeNatFuel (fuel n : Nat) (h : n ≤ fuel) (rest : List Byte) :
    readNat (writeNatFuel fuel n ++ rest) = .ok (n, rest) := by
  induction fuel generalizing n with
  | zero =>
    obtain rfl : n = 0 := by omega
    simp [writeNatFuel, readNat]
  | succ k ih =>
    unfold writeNatFuel
    split
    · have hn : n % 256 = n := by omega
      simp only [List.cons_append, List.nil_append, readNat, BitVec.toNat_ofNat]
      rw [show n % 2 ^ 8 = n from hn]
      simp [*]
    · have h1 : (BitVec.ofNat 8 (128 + n % 128)).toNat = 128 + n % 128 := by
        simp only [BitVec.toNat_ofNat]
        omega
      have hnot : ¬ (128 + n % 128 < 128) := by omega
      rw [List.cons_append, readNat]
      simp only [h1, hnot, if_false, ih (n / 128) (by omega)]
      congr 2
      omega

@[simp] theorem readNat_writeNat (n : Nat) (rest : List Byte) : readNat (writeNat n ++ rest) = .ok (n, rest) :=
  readNat_writeNatFuel n n (Nat.le_refl n) rest

@[simp] theorem unzigzag_zigzag (v : Int) : unzigzag (zigzag v) = v := by
  cases v with
  | ofNat n => simp [zigzag, unzigzag]
  | negSucc n =>
    have h : ¬ (2 * n + 1) % 2 = 0 := by omega
    have h2 : (2 * n + 1) / 2 = n := by omega
    simp only [zigzag, unzigzag, h, if_false, h2]

@[simp] theorem readInt_writeInt (v : Int) (rest : List Byte) : readInt (writeInt v ++ rest) = .ok (v, rest) := by
  simp [readInt, writeInt, bind, Except.bind]

@[simp] theorem readRat_writeRat (q : Rat) (rest : List Byte) : readRat (writeRat q ++ rest) = .ok (q, rest) := by
  have hd : q.den - 1 + 1 = q.den := Nat.sub_add_cancel q.den_pos
  simp [readRat, writeRat, bind, Except.bind, List.append_assoc, hd, Rat.mkRat_self]

@[simp] theorem readOption_writeOption (p : Option Byte) (rest : List Byte) :
    readOption (writeOption p ++ rest) = .ok (p, rest) := by
  cases p <;> simp [readOption, writeOption, bind, Except.bind]

@[simp] theorem readValue_writeValue (v : HostValue) (rest : List Byte) :
    readValue (writeValue v ++ rest) = .ok (v, rest) := by
  cases v <;> simp [readValue, writeValue, bind, Except.bind]

/-! The same at the end of a packet, with no byte after. -/

@[simp] theorem readNat_writeNat_end (n : Nat) : readNat (writeNat n) = .ok (n, []) := by
  simpa using readNat_writeNat n []

@[simp] theorem readRat_writeRat_end (q : Rat) : readRat (writeRat q) = .ok (q, []) := by
  simpa using readRat_writeRat q []

@[simp] theorem readOption_writeOption_end (p : Option Byte) : readOption (writeOption p) = .ok (p, []) := by
  simpa using readOption_writeOption p []

@[simp] theorem readValue_writeValue_end (v : HostValue) : readValue (writeValue v) = .ok (v, []) := by
  simpa using readValue_writeValue v []

/-- The two halves of a 16-bit integer, joined again. -/
theorem join_le16 (v : BitVec 16) : (v.extractLsb' 8 8 ++ v.extractLsb' 0 8 : BitVec 16) = v := by
  ext i hi
  simp only [BitVec.getElem_append, BitVec.getElem_extractLsb']
  split
  · simp [← BitVec.getLsbD_eq_getElem]
  · rw [show 8 + (i - 8) = i by omega, BitVec.getLsbD_eq_getElem hi]

/-- The three bytes of a 24-bit integer, joined again. -/
theorem join_le24 (v : BitVec 24) :
    (v.extractLsb' 16 8 ++ v.extractLsb' 8 8 ++ v.extractLsb' 0 8 : BitVec 24) = v := by
  ext i hi
  simp only [BitVec.getElem_append, BitVec.getElem_extractLsb']
  split
  · simp [← BitVec.getLsbD_eq_getElem]
  · split
    · rw [show 8 + (i - 8) = i by omega, BitVec.getLsbD_eq_getElem hi]
    · rw [show 16 + (i - 8 - 8) = i by omega, BitVec.getLsbD_eq_getElem hi]

end Sys2Proof
end

