-- ==== Sys2Proof/Laws/State.lean ====
section
/-! SUPPORT. For every field update of `Machine/Ops.lean`, what each field of the updated state is. -/

namespace Sys2Proof.Machine.State

variable (s : State)

section setLink

variable (l : Link)

@[simp] theorem setLink_link : (s.setLink l).link = l := rfl
@[simp] theorem setLink_phase : (s.setLink l).phase = s.phase := rfl
@[simp] theorem setLink_addr : (s.setLink l).addr = s.addr := rfl
@[simp] theorem setLink_info : (s.setLink l).info = s.info := rfl
@[simp] theorem setLink_faultMark : (s.setLink l).faultMark = s.faultMark := rfl
@[simp] theorem setLink_refusedMark : (s.setLink l).refusedMark = s.refusedMark := rfl
@[simp] theorem setLink_cfg : (s.setLink l).cfg = s.cfg := rfl
@[simp] theorem setLink_crcTable : (s.setLink l).crcTable = s.crcTable := rfl
@[simp] theorem setLink_timer : (s.setLink l).timer = s.timer := rfl
@[simp] theorem setLink_calls : (s.setLink l).calls = s.calls := rfl
@[simp] theorem setLink_trace : (s.setLink l).trace = s.trace := rfl
@[simp] theorem setLink_log : (s.setLink l).log = s.log := rfl
@[simp] theorem setLink_draws : (s.setLink l).draws = s.draws := rfl
@[simp] theorem setLink_inbox : (s.setLink l).inbox = s.inbox := rfl
@[simp] theorem setLink_result : (s.setLink l).result = s.result := rfl

end setLink

section setPhase

variable (p : Phase)

@[simp] theorem setPhase_link : (s.setPhase p).link = s.link := rfl
@[simp] theorem setPhase_phase : (s.setPhase p).phase = p := rfl
@[simp] theorem setPhase_addr : (s.setPhase p).addr = s.addr := rfl
@[simp] theorem setPhase_info : (s.setPhase p).info = s.info := rfl
@[simp] theorem setPhase_faultMark : (s.setPhase p).faultMark = s.faultMark := rfl
@[simp] theorem setPhase_refusedMark : (s.setPhase p).refusedMark = s.refusedMark := rfl
@[simp] theorem setPhase_cfg : (s.setPhase p).cfg = s.cfg := rfl
@[simp] theorem setPhase_crcTable : (s.setPhase p).crcTable = s.crcTable := rfl
@[simp] theorem setPhase_timer : (s.setPhase p).timer = s.timer := rfl
@[simp] theorem setPhase_calls : (s.setPhase p).calls = s.calls := rfl
@[simp] theorem setPhase_trace : (s.setPhase p).trace = s.trace := rfl
@[simp] theorem setPhase_log : (s.setPhase p).log = s.log := rfl
@[simp] theorem setPhase_draws : (s.setPhase p).draws = s.draws := rfl
@[simp] theorem setPhase_inbox : (s.setPhase p).inbox = s.inbox := rfl
@[simp] theorem setPhase_result : (s.setPhase p).result = s.result := rfl

end setPhase

section setAddr

variable (a : Option Byte)

@[simp] theorem setAddr_link : (s.setAddr a).link = s.link := rfl
@[simp] theorem setAddr_phase : (s.setAddr a).phase = s.phase := rfl
@[simp] theorem setAddr_addr : (s.setAddr a).addr = a := rfl
@[simp] theorem setAddr_info : (s.setAddr a).info = s.info := rfl
@[simp] theorem setAddr_faultMark : (s.setAddr a).faultMark = s.faultMark := rfl
@[simp] theorem setAddr_refusedMark : (s.setAddr a).refusedMark = s.refusedMark := rfl
@[simp] theorem setAddr_cfg : (s.setAddr a).cfg = s.cfg := rfl
@[simp] theorem setAddr_crcTable : (s.setAddr a).crcTable = s.crcTable := rfl
@[simp] theorem setAddr_timer : (s.setAddr a).timer = s.timer := rfl
@[simp] theorem setAddr_calls : (s.setAddr a).calls = s.calls := rfl
@[simp] theorem setAddr_trace : (s.setAddr a).trace = s.trace := rfl
@[simp] theorem setAddr_log : (s.setAddr a).log = s.log := rfl
@[simp] theorem setAddr_draws : (s.setAddr a).draws = s.draws := rfl
@[simp] theorem setAddr_inbox : (s.setAddr a).inbox = s.inbox := rfl
@[simp] theorem setAddr_result : (s.setAddr a).result = s.result := rfl

end setAddr

section setInfo

variable (r : Option DeviceInfo)

@[simp] theorem setInfo_link : (s.setInfo r).link = s.link := rfl
@[simp] theorem setInfo_phase : (s.setInfo r).phase = s.phase := rfl
@[simp] theorem setInfo_addr : (s.setInfo r).addr = s.addr := rfl
@[simp] theorem setInfo_info : (s.setInfo r).info = r := rfl
@[simp] theorem setInfo_faultMark : (s.setInfo r).faultMark = s.faultMark := rfl
@[simp] theorem setInfo_refusedMark : (s.setInfo r).refusedMark = s.refusedMark := rfl
@[simp] theorem setInfo_cfg : (s.setInfo r).cfg = s.cfg := rfl
@[simp] theorem setInfo_crcTable : (s.setInfo r).crcTable = s.crcTable := rfl
@[simp] theorem setInfo_timer : (s.setInfo r).timer = s.timer := rfl
@[simp] theorem setInfo_calls : (s.setInfo r).calls = s.calls := rfl
@[simp] theorem setInfo_trace : (s.setInfo r).trace = s.trace := rfl
@[simp] theorem setInfo_log : (s.setInfo r).log = s.log := rfl
@[simp] theorem setInfo_draws : (s.setInfo r).draws = s.draws := rfl
@[simp] theorem setInfo_inbox : (s.setInfo r).inbox = s.inbox := rfl
@[simp] theorem setInfo_result : (s.setInfo r).result = s.result := rfl

end setInfo

section setTimer

variable (t : Option Nat)

@[simp] theorem setTimer_link : (s.setTimer t).link = s.link := rfl
@[simp] theorem setTimer_phase : (s.setTimer t).phase = s.phase := rfl
@[simp] theorem setTimer_addr : (s.setTimer t).addr = s.addr := rfl
@[simp] theorem setTimer_info : (s.setTimer t).info = s.info := rfl
@[simp] theorem setTimer_faultMark : (s.setTimer t).faultMark = s.faultMark := rfl
@[simp] theorem setTimer_refusedMark : (s.setTimer t).refusedMark = s.refusedMark := rfl
@[simp] theorem setTimer_cfg : (s.setTimer t).cfg = s.cfg := rfl
@[simp] theorem setTimer_crcTable : (s.setTimer t).crcTable = s.crcTable := rfl
@[simp] theorem setTimer_timer : (s.setTimer t).timer = t := rfl
@[simp] theorem setTimer_calls : (s.setTimer t).calls = s.calls := rfl
@[simp] theorem setTimer_trace : (s.setTimer t).trace = s.trace := rfl
@[simp] theorem setTimer_log : (s.setTimer t).log = s.log := rfl
@[simp] theorem setTimer_draws : (s.setTimer t).draws = s.draws := rfl
@[simp] theorem setTimer_inbox : (s.setTimer t).inbox = s.inbox := rfl
@[simp] theorem setTimer_result : (s.setTimer t).result = s.result := rfl

end setTimer

section call

variable (c : TransportCall)

@[simp] theorem call_link : (s.call c).link = s.link := rfl
@[simp] theorem call_phase : (s.call c).phase = s.phase := rfl
@[simp] theorem call_addr : (s.call c).addr = s.addr := rfl
@[simp] theorem call_info : (s.call c).info = s.info := rfl
@[simp] theorem call_faultMark : (s.call c).faultMark = s.faultMark := rfl
@[simp] theorem call_refusedMark : (s.call c).refusedMark = s.refusedMark := rfl
@[simp] theorem call_cfg : (s.call c).cfg = s.cfg := rfl
@[simp] theorem call_crcTable : (s.call c).crcTable = s.crcTable := rfl
@[simp] theorem call_timer : (s.call c).timer = s.timer := rfl
@[simp] theorem call_calls : (s.call c).calls = s.calls ++ [c] := rfl
@[simp] theorem call_trace : (s.call c).trace = s.trace := rfl
@[simp] theorem call_log : (s.call c).log = s.log := rfl
@[simp] theorem call_draws : (s.call c).draws = s.draws := rfl
@[simp] theorem call_inbox : (s.call c).inbox = s.inbox := rfl
@[simp] theorem call_result : (s.call c).result = s.result := rfl

end call

section addLogs

variable (ls : List LogLevel)

@[simp] theorem addLogs_link : (s.addLogs ls).link = s.link := rfl
@[simp] theorem addLogs_phase : (s.addLogs ls).phase = s.phase := rfl
@[simp] theorem addLogs_addr : (s.addLogs ls).addr = s.addr := rfl
@[simp] theorem addLogs_info : (s.addLogs ls).info = s.info := rfl
@[simp] theorem addLogs_faultMark : (s.addLogs ls).faultMark = s.faultMark := rfl
@[simp] theorem addLogs_refusedMark : (s.addLogs ls).refusedMark = s.refusedMark := rfl
@[simp] theorem addLogs_cfg : (s.addLogs ls).cfg = s.cfg := rfl
@[simp] theorem addLogs_crcTable : (s.addLogs ls).crcTable = s.crcTable := rfl
@[simp] theorem addLogs_timer : (s.addLogs ls).timer = s.timer := rfl
@[simp] theorem addLogs_calls : (s.addLogs ls).calls = s.calls := rfl
@[simp] theorem addLogs_trace : (s.addLogs ls).trace = s.trace := rfl
@[simp] theorem addLogs_log : (s.addLogs ls).log = s.log ++ ls := rfl
@[simp] theorem addLogs_draws : (s.addLogs ls).draws = s.draws := rfl
@[simp] theorem addLogs_inbox : (s.addLogs ls).inbox = s.inbox := rfl
@[simp] theorem addLogs_result : (s.addLogs ls).result = s.result := rfl

end addLogs

section record

variable (src : Source) (outs : List Emission) (st : Status)

@[simp] theorem record_link : (s.record src outs st).link = s.link := rfl
@[simp] theorem record_phase : (s.record src outs st).phase = s.phase := rfl
@[simp] theorem record_addr : (s.record src outs st).addr = s.addr := rfl
@[simp] theorem record_info : (s.record src outs st).info = s.info := rfl
@[simp] theorem record_faultMark : (s.record src outs st).faultMark = s.faultMark := rfl
@[simp] theorem record_refusedMark : (s.record src outs st).refusedMark = s.refusedMark := rfl
@[simp] theorem record_cfg : (s.record src outs st).cfg = s.cfg := rfl
@[simp] theorem record_crcTable : (s.record src outs st).crcTable = s.crcTable := rfl
@[simp] theorem record_timer : (s.record src outs st).timer = s.timer := rfl
@[simp] theorem record_calls : (s.record src outs st).calls = s.calls := rfl
@[simp] theorem record_trace : (s.record src outs st).trace = s.trace ++ [⟨src, outs, st⟩] := rfl
@[simp] theorem record_log : (s.record src outs st).log = s.log := rfl
@[simp] theorem record_draws : (s.record src outs st).draws = s.draws := rfl
@[simp] theorem record_inbox : (s.record src outs st).inbox = s.inbox := rfl
@[simp] theorem record_result : (s.record src outs st).result = s.result := rfl

end record

section answer

variable (r : OpResult)

@[simp] theorem answer_link : (s.answer r).link = s.link := rfl
@[simp] theorem answer_phase : (s.answer r).phase = s.phase := rfl
@[simp] theorem answer_addr : (s.answer r).addr = s.addr := rfl
@[simp] theorem answer_info : (s.answer r).info = s.info := rfl
@[simp] theorem answer_faultMark : (s.answer r).faultMark = s.faultMark := rfl
@[simp] theorem answer_refusedMark : (s.answer r).refusedMark = s.refusedMark := rfl
@[simp] theorem answer_cfg : (s.answer r).cfg = s.cfg := rfl
@[simp] theorem answer_crcTable : (s.answer r).crcTable = s.crcTable := rfl
@[simp] theorem answer_timer : (s.answer r).timer = s.timer := rfl
@[simp] theorem answer_calls : (s.answer r).calls = s.calls := rfl
@[simp] theorem answer_trace : (s.answer r).trace = s.trace := rfl
@[simp] theorem answer_log : (s.answer r).log = s.log := rfl
@[simp] theorem answer_draws : (s.answer r).draws = s.draws := rfl
@[simp] theorem answer_inbox : (s.answer r).inbox = s.inbox := rfl
@[simp] theorem answer_result : (s.answer r).result = some r := rfl

end answer

section setDraws

variable (d : Draws)

@[simp] theorem setDraws_link : (s.setDraws d).link = s.link := rfl
@[simp] theorem setDraws_phase : (s.setDraws d).phase = s.phase := rfl
@[simp] theorem setDraws_addr : (s.setDraws d).addr = s.addr := rfl
@[simp] theorem setDraws_info : (s.setDraws d).info = s.info := rfl
@[simp] theorem setDraws_faultMark : (s.setDraws d).faultMark = s.faultMark := rfl
@[simp] theorem setDraws_refusedMark : (s.setDraws d).refusedMark = s.refusedMark := rfl
@[simp] theorem setDraws_cfg : (s.setDraws d).cfg = s.cfg := rfl
@[simp] theorem setDraws_crcTable : (s.setDraws d).crcTable = s.crcTable := rfl
@[simp] theorem setDraws_timer : (s.setDraws d).timer = s.timer := rfl
@[simp] theorem setDraws_calls : (s.setDraws d).calls = s.calls := rfl
@[simp] theorem setDraws_trace : (s.setDraws d).trace = s.trace := rfl
@[simp] theorem setDraws_log : (s.setDraws d).log = s.log := rfl
@[simp] theorem setDraws_draws : (s.setDraws d).draws = d := rfl
@[simp] theorem setDraws_inbox : (s.setDraws d).inbox = s.inbox := rfl
@[simp] theorem setDraws_result : (s.setDraws d).result = s.result := rfl

end setDraws

section setInbox

variable (ds : List Delivery)

@[simp] theorem setInbox_link : (s.setInbox ds).link = s.link := rfl
@[simp] theorem setInbox_phase : (s.setInbox ds).phase = s.phase := rfl
@[simp] theorem setInbox_addr : (s.setInbox ds).addr = s.addr := rfl
@[simp] theorem setInbox_info : (s.setInbox ds).info = s.info := rfl
@[simp] theorem setInbox_faultMark : (s.setInbox ds).faultMark = s.faultMark := rfl
@[simp] theorem setInbox_refusedMark : (s.setInbox ds).refusedMark = s.refusedMark := rfl
@[simp] theorem setInbox_cfg : (s.setInbox ds).cfg = s.cfg := rfl
@[simp] theorem setInbox_crcTable : (s.setInbox ds).crcTable = s.crcTable := rfl
@[simp] theorem setInbox_timer : (s.setInbox ds).timer = s.timer := rfl
@[simp] theorem setInbox_calls : (s.setInbox ds).calls = s.calls := rfl
@[simp] theorem setInbox_trace : (s.setInbox ds).trace = s.trace := rfl
@[simp] theorem setInbox_log : (s.setInbox ds).log = s.log := rfl
@[simp] theorem setInbox_draws : (s.setInbox ds).draws = s.draws := rfl
@[simp] theorem setInbox_inbox : (s.setInbox ds).inbox = ds := rfl
@[simp] theorem setInbox_result : (s.setInbox ds).result = s.result := rfl

end setInbox

end Sys2Proof.Machine.State
end

