-- ==== Sys2Proof/Laws/Ops.lean ====
section
/-! SUPPORT. For each shared operation, once, everything it can do. The proofs about `exec` cite these and do not unfold
the operations. -/

namespace Sys2Proof.Machine

variable {s t : State}

/-- An ignored event only adds its entry to the trace. -/
theorem ignoreClosed_next (src : Source) (tag : Byte) (s : State) :
    ignoreClosed src tag s = .next (s.record src [] (.ignoredLinkClosed tag)) := rfl

/-- SEND with a successful write. -/
theorem send_ok (f : List Byte) (h : s.draws.txOk = true) : send f s = (s, .ok) := by
  simp [send, h]

/-- SEND with a failed write. -/
theorem send_fail (f : List Byte) (h : s.draws.txOk = false) :
    send f s = ((s.setLink .closed).addLogs [.error], .faultTransportWrite f) := by
  simp [send, h]

/-- The state and the status SEND leaves, by the draw. -/
theorem send_cases (f : List Byte) (s : State) :
    (s.draws.txOk = true ∧ send f s = (s, .ok)) ∨
    (s.draws.txOk = false ∧ send f s = ((s.setLink .closed).addLogs [.error], .faultTransportWrite f)) := by
  cases h : s.draws.txOk
  · exact .inr ⟨rfl, send_fail f h⟩
  · exact .inl ⟨rfl, send_ok f h⟩

/-- A sent command with a latched address always answers a next state. -/
theorem sendCommand_some (src : Source) (op : Byte) (param : Option Byte) (after : State → State) {a : Byte}
    (h : s.addr = some a) :
    sendCommand src op param after s =
      .next ((after (send (encodeFrame s.crcTable a op param) s).1).record src
        [.tx (encodeFrame s.crcTable a op param) s.draws.txOk] (send (encodeFrame s.crcTable a op param) s).2) := by
  simp [sendCommand, h]

/-- What a sent command can do when it answers a next state. -/
theorem sendCommand_next {src : Source} {op : Byte} {param : Option Byte} {after : State → State}
    (h : sendCommand src op param after s = .next t) :
    ∃ a, s.addr = some a ∧
      ((s.draws.txOk = true ∧
        t = (after s).record src [.tx (encodeFrame s.crcTable a op param) true] .ok) ∨
      (s.draws.txOk = false ∧
        t = (after ((s.setLink .closed).addLogs [.error])).record src
          [.tx (encodeFrame s.crcTable a op param) false]
          (.faultTransportWrite (encodeFrame s.crcTable a op param)))) := by
  cases ha : s.addr with
  | none => simp [sendCommand, ha] at h
  | some a =>
    rw [sendCommand_some src op param after ha] at h
    refine ⟨a, rfl, ?_⟩
    rcases send_cases (encodeFrame s.crcTable a op param) s with ⟨hd, hs⟩ | ⟨hd, hs⟩
    · exact .inl ⟨hd, by simpa [hs, hd, eq_comm] using h⟩
    · exact .inr ⟨hd, by simpa [hs, hd, eq_comm] using h⟩

/-- A send that needs the open link: ignored, or sent. -/
theorem sendIfOpen_next {src : Source} {tag op : Byte} {param : Option Byte}
    (h : sendIfOpen src tag op param s = .next t) :
    (s.link = .closed ∧ t = s.record src [] (.ignoredLinkClosed tag)) ∨
    (s.link = .opened ∧ sendCommand src op param id s = .next t) := by
  cases hl : s.link with
  | closed => exact .inl ⟨rfl, by simpa [sendIfOpen, hl, ignoreClosed, eq_comm] using h⟩
  | opened => exact .inr ⟨rfl, by simpa [sendIfOpen, hl] using h⟩

/-- A USER write: ignored, or its clamped integer sent. -/
theorem userWrite_next {tag op : Byte} {hi : Int} {v : HostValue} (h : userWrite tag op hi v s = .next t) :
    (s.link = .closed ∧ t = s.record (.event tag) [] (.ignoredLinkClosed tag)) ∨
    (s.link = .opened ∧ ∃ n, v = .integer n ∧
      sendCommand (.event tag) op (some (clampParam n hi)) id s = .next t) := by
  cases hl : s.link with
  | closed => exact .inl ⟨rfl, by simpa [userWrite, hl, ignoreClosed, eq_comm] using h⟩
  | opened =>
    cases v with
    | notInteger => simp [userWrite, hl] at h
    | integer n => exact .inr ⟨rfl, n, rfl, by simpa [userWrite, hl] using h⟩

/-- The session record after a DECODE outcome: replaced by a device-info record, else kept. -/
def infoAfter (o : DecodeOutcome) (old : Option DeviceInfo) : Option DeviceInfo :=
  match o with
  | .deviceInfo r => some r
  | .reading _ | .unrecognized _ | .dropTooShort _ | .dropBadChecksum _ _ | .dropShortForType _ _ => old

/-- What applying a DECODE outcome does: the session record, the log and one trace entry. -/
theorem applyDecode_eq (src : Source) (o : DecodeOutcome) (s : State) :
    applyDecode src o s =
      ((s.setInfo (infoAfter o s.info)).addLogs o.logs).record src o.emissions o.status := by
  cases o <;> rfl

/-- An arriving frame: ignored, or decoded. -/
theorem receive_next {f : List Byte} (h : receive f s = .next t) :
    (s.link = .closed ∧ t = s.record (.event 0x07) [] (.ignoredLinkClosed 0x07)) ∨
    (s.link = .opened ∧ t = applyDecode (.event 0x07) (decodeFrame s.crcTable f) s) := by
  cases hl : s.link with
  | closed => exact .inl ⟨rfl, by simpa [receive, hl, ignoreClosed, eq_comm] using h⟩
  | opened => exact .inr ⟨rfl, by simpa [receive, hl, eq_comm] using h⟩

/-- A free-standing extractor: its field lies in the frame, and only `result` changes. -/
theorem extract_next {f : List Byte} {off n : Nat} {r : OpResult} (h : extract f off n r s = .next t) :
    inFrame f off n = true ∧ t = s.answer r := by
  unfold extract at h
  split at h
  · exact ⟨‹_›, by simpa [answerWith, eq_comm] using h⟩
  · cases h

/-- Taking a delivery: the first of the inbox, with its draws. -/
theorem takeDelivery_some {p : Packet} (h : takeDelivery s = some (p, t)) :
    ∃ d rest, s.inbox = d :: rest ∧ p = d.packet ∧ t = (s.setInbox rest).setDraws d.draws := by
  cases hb : s.inbox with
  | nil => simp [takeDelivery, hb] at h
  | cons d rest =>
    simp only [takeDelivery, hb, Option.some.injEq, Prod.mk.injEq] at h
    exact ⟨d, rest, rfl, h.1.symm, h.2.symm⟩

/-- What one step can do when it answers a next state: nothing with no delivery, else `exec` of the decoded row. -/
theorem step_next (h : step s = .next t) :
    (s.inbox = [] ∧ t = s) ∨
    ∃ d rest i, s.inbox = d :: rest ∧ decode d.packet = .ok i ∧
      exec i ((s.setInbox rest).setDraws d.draws) = .next t := by
  cases hb : s.inbox with
  | nil =>
    left
    simpa [step, takeDelivery, hb, eq_comm] using h
  | cons d rest =>
    right
    cases hd : decode d.packet with
    | error e => simp [step, takeDelivery, hb, hd] at h
    | ok i => exact ⟨d, rest, i, rfl, hd, by simpa [step, takeDelivery, hb, hd] using h⟩

end Sys2Proof.Machine
end

