-- ==== Sys2Proof/Laws/Exec.lean ====
section
/-! SUPPORT. What one row can do, said once: the inversion lemma of `exec`, from which statements over all rows follow
without unfolding any meaning. -/

namespace Sys2Proof.Machine

/-- The source a row's trace entry names; a row that leaves no entry is given its tag. -/
def rowSource : Instr → Source
  | .readLevel => .command 0x06
  | .readInfo => .command 0x10
  | .reqPeriodic => .command 0x07
  | .setMode _ => .command 0x17
  | .setInterval _ => .command 0x13
  | .setFilter _ => .command 0x0E
  | .rspReading _ | .rspInfo _ | .rspOther _ | .rx _ => .event 0x07
  | .connect => .event 0x01
  | .tick => .event 0x02
  | .userPeriodic => .event 0x03
  | .userMode _ => .event 0x04
  | .userInterval _ => .event 0x05
  | .userFilter _ => .event 0x06
  | .close => .event 0x08
  | .crcStep _ _ => .operation 0x10
  | .crc8 _ => .operation 0x11
  | .encode _ _ _ => .operation 0x12
  | .decode _ => .operation 0x13
  | .scale _ _ _ _ _ => .operation 0x14
  | .round2c _ => .operation 0x15
  | .fuel _ => .operation 0x16
  | .clamp _ _ _ => .operation 0x17
  | .tempSm _ => .operation 0x18
  | .u16le _ _ => .operation 0x19
  | .i16le _ _ => .operation 0x1A
  | .i8 _ _ => .operation 0x1B
  | .u24le _ _ => .operation 0x1C
  | .text _ _ _ => .operation 0x1D

/-- The polling state a sending row leaves: SteadyPolling after the first TICK, else unchanged. -/
def phaseAfterSend (i : Instr) (p : Phase) : Phase :=
  if i = .tick then .steadyPolling else p

/-- The next states a row can answer. -/
inductive RowEffect (s : State) : Instr → State → Prop where
  | ignored (i : Instr) (tag : Byte) (hl : s.link = .closed) :
      RowEffect s i (s.record (rowSource i) [] (.ignoredLinkClosed tag))
  | sentOk (i : Instr) (a : Byte) (f : List Byte) (hl : s.link = .opened) (ha : s.addr = some a)
      (hf : isCommandFrame s.crcTable a f) (hd : s.draws.txOk = true) :
      RowEffect s i ((s.setPhase (phaseAfterSend i s.phase)).record (rowSource i) [.tx f true] .ok)
  | sentFail (i : Instr) (a : Byte) (f : List Byte) (hl : s.link = .opened) (ha : s.addr = some a)
      (hf : isCommandFrame s.crcTable a f) (hd : s.draws.txOk = false) :
      RowEffect s i ((((s.setLink .closed).addLogs [.error]).setPhase (phaseAfterSend i s.phase)).record (rowSource i)
        [.tx f false] (.faultTransportWrite f))
  | received (i : Instr) (f : List Byte) (hl : s.link = .opened) (hs : rowSource i = .event 0x07) :
      RowEffect s i (applyDecode (rowSource i) (decodeFrame s.crcTable f) s)
  | decodedFree (f : List Byte) :
      RowEffect s (.decode f) ((applyDecode (rowSource (.decode f)) (decodeFrame s.crcTable f) s).answer
        (.decoded (decodeFrame s.crcTable f)))
  | answered (i : Instr) (r : OpResult) (hi : isEvent i = false) : RowEffect s i (s.answer r)
  | connected (a : Byte) (hl : s.link = .closed) (ha : legalAddress s.cfg.address = some a)
      (hd : s.draws.openOk = true) : RowEffect s .connect (openConnection a s)
  | openFailed (hl : s.link = .closed) (hd : s.draws.openOk = false) : RowEffect s .connect (failOpen s)
  | closed : RowEffect s .close (closeConnection s)

/-- A clamped parameter is a byte no greater than its bound. -/
theorem clampParam_le (v : Int) (hi : Byte) : clampParam v (hi.toNat : Int) ≤ hi := by
  have h0 : 0 ≤ clamp v 0 (hi.toNat : Int) := le_max_right _ _
  have h1 : clamp v 0 (hi.toNat : Int) ≤ hi.toNat := max_le (min_le_right _ _) (by omega)
  have hb := hi.isLt
  obtain ⟨n, hn⟩ := Int.eq_ofNat_of_zero_le h0
  rw [BitVec.le_def]
  unfold clampParam
  rw [hn] at h1 ⊢
  have h2 : n ≤ hi.toNat := by exact_mod_cast h1
  rw [BitVec.ofInt_natCast, BitVec.toNat_ofNat, Nat.mod_eq_of_lt (by omega)]
  exact h2

/-- A sent command that answers a next state is a `RowEffect`. -/
theorem sendCommand_effect {s t : State} {i : Instr} {op : Byte} {param : Option Byte} {after : State → State}
    (hl : s.link = .opened)
    (ha : ∀ u : State, u.phase = s.phase → after u = u.setPhase (phaseAfterSend i s.phase))
    (hf : ∀ a, isCommandFrame s.crcTable a (encodeFrame s.crcTable a op param))
    (h : sendCommand (rowSource i) op param after s = .next t) : RowEffect s i t := by
  obtain ⟨a, haddr, ⟨hd, rfl⟩ | ⟨hd, rfl⟩⟩ := sendCommand_next h
  · rw [ha s rfl]
    exact .sentOk i a _ hl haddr (hf a) hd
  · rw [ha ((s.setLink .closed).addLogs [.error]) rfl]
    exact .sentFail i a _ hl haddr (hf a) hd

/-- The same for a row that leaves the polling state alone and needs the open link. -/
theorem sendIfOpen_effect {s t : State} {i : Instr} {tag op : Byte} {param : Option Byte} (hi : i ≠ .tick)
    (hf : ∀ a, isCommandFrame s.crcTable a (encodeFrame s.crcTable a op param))
    (h : sendIfOpen (rowSource i) tag op param s = .next t) : RowEffect s i t := by
  rcases sendIfOpen_next h with ⟨hl, rfl⟩ | ⟨hl, hs⟩
  · exact .ignored i tag hl
  · refine sendCommand_effect hl (fun u hu => ?_) hf hs
    simp only [id, phaseAfterSend, hi, if_false, ← hu]
    rfl

/-- The same for a USER write. -/
theorem userWrite_effect {s t : State} {i : Instr} {tag op : Byte} {hi : Int} {v : HostValue} (hne : i ≠ .tick)
    (hsrc : rowSource i = .event tag)
    (hf : ∀ a n, isCommandFrame s.crcTable a (encodeFrame s.crcTable a op (some (clampParam n hi))))
    (h : userWrite tag op hi v s = .next t) : RowEffect s i t := by
  rcases userWrite_next h with ⟨hl, rfl⟩ | ⟨hl, n, _, hs⟩
  · rw [← hsrc]
    exact .ignored i tag hl
  · rw [← hsrc] at hs
    refine sendCommand_effect hl (fun u hu => ?_) (fun a => hf a n) hs
    simp only [id, phaseAfterSend, hne, if_false, ← hu]
    rfl

/-- An arriving frame that answers a next state is a `RowEffect`. -/
theorem receive_effect {s t : State} {i : Instr} {f : List Byte} (hs : rowSource i = .event 0x07)
    (h : receive f s = .next t) : RowEffect s i t := by
  rcases receive_next h with ⟨hl, rfl⟩ | ⟨hl, rfl⟩
  · rw [← hs]
    exact .ignored i 0x07 hl
  · rw [← hs]
    exact .received i f hl hs

/-- A free-standing extractor that answers a next state is a `RowEffect`. -/
theorem extract_effect {s t : State} {i : Instr} {f : List Byte} {off n : Nat} {r : OpResult} (hi : isEvent i = false)
    (h : extract f off n r s = .next t) : RowEffect s i t := by
  obtain ⟨_, rfl⟩ := extract_next h
  exact .answered i r hi

/-- What one row can do when it answers a next state. -/
theorem exec_next {i : Instr} {s t : State} (h : exec i s = .next t) : RowEffect s i t := by
  have hcmd4 : ∀ op, (op = 0x06 ∨ op = 0x10 ∨ op = 0x07) →
      ∀ a, isCommandFrame s.crcTable a (encodeFrame s.crcTable a op none) := by
    rintro op (rfl | rfl | rfl) a <;> rw [encodeFrame_none] <;> simp [isCommandFrame]
  have hmode : ∀ a n, isCommandFrame s.crcTable a (encodeFrame s.crcTable a 0x17 (some (clampParam n 2))) :=
    fun a n => encodeFrame_some s.crcTable a _ _ ▸ .inr (.inr (.inr (.inl ⟨_, clampParam_le n 2, rfl⟩)))
  have hintv : ∀ a n, isCommandFrame s.crcTable a (encodeFrame s.crcTable a 0x13 (some (clampParam n 255))) :=
    fun a n => encodeFrame_some s.crcTable a _ _ ▸ .inr (.inr (.inr (.inr (.inl ⟨_, rfl⟩))))
  have hfilt : ∀ a n, isCommandFrame s.crcTable a (encodeFrame s.crcTable a 0x0E (some (clampParam n 20))) :=
    fun a n => encodeFrame_some s.crcTable a _ _ ▸ .inr (.inr (.inr (.inr (.inr ⟨_, clampParam_le n 20, rfl⟩))))
  cases i with
  | readLevel => exact sendIfOpen_effect (by simp) (hcmd4 0x06 (by simp)) h
  | readInfo => exact sendIfOpen_effect (by simp) (hcmd4 0x10 (by simp)) h
  | reqPeriodic => exact sendIfOpen_effect (by simp) (hcmd4 0x07 (by simp)) h
  | setMode p => exact sendIfOpen_effect (by simp) (fun a => hmode a _) h
  | setInterval p => exact sendIfOpen_effect (by simp) (fun a => hintv a _) h
  | setFilter p => exact sendIfOpen_effect (by simp) (fun a => hfilt a _) h
  | rspReading f => exact receive_effect rfl h
  | rspInfo f => exact receive_effect rfl h
  | rspOther f => exact receive_effect rfl h
  | connect =>
    cases hl : s.link with
    | opened => simp [exec, execConnect, hl] at h
    | closed =>
      cases ha : legalAddress s.cfg.address with
      | none => simp [exec, execConnect, hl, ha] at h
      | some a =>
        cases hd : s.draws.openOk
        · obtain rfl : failOpen s = t := by simpa [exec, execConnect, hl, ha, hd] using h
          exact .openFailed hl hd
        · obtain rfl : openConnection a s = t := by simpa [exec, execConnect, hl, ha, hd] using h
          exact .connected a hl ha hd
  | tick =>
    cases hl : s.link with
    | closed =>
      obtain rfl : s.record (rowSource .tick) [] (.ignoredLinkClosed 0x02) = t := by
        simpa [exec, execTick, hl, ignoreClosed, rowSource] using h
      exact .ignored .tick 0x02 hl
    | opened =>
      cases hp : s.phase with
      | awaitingFirstPoll =>
        simp only [exec, execTick, hl, hp] at h
        exact sendCommand_effect (i := .tick) hl (fun u _ => rfl) (hcmd4 0x10 (by simp)) h
      | steadyPolling =>
        simp only [exec, execTick, hl, hp] at h
        refine sendCommand_effect (i := .tick) hl (fun u hu => ?_) (hcmd4 0x06 (by simp)) h
        have hu' : u.phase = .steadyPolling := hu.trans hp
        simp only [id, phaseAfterSend, if_true, ← hu']
        rfl
  | userPeriodic => exact sendIfOpen_effect (by simp) (hcmd4 0x07 (by simp)) h
  | userMode v => exact userWrite_effect (by simp) rfl hmode h
  | userInterval v => exact userWrite_effect (by simp) rfl hintv h
  | userFilter v => exact userWrite_effect (by simp) rfl hfilt h
  | rx f => exact receive_effect rfl h
  | close =>
    obtain rfl : closeConnection s = t := by simpa [exec, execClose] using h
    exact .closed
  | decode f =>
    obtain rfl : (applyDecode (.operation 0x13) (decodeFrame s.crcTable f) s).answer
        (.decoded (decodeFrame s.crcTable f)) = t := by simpa [exec, execDecode] using h
    exact .decodedFree f
  | scale x a b c d =>
    cases hq : scale x a b c d with
    | none => simp [exec, execScale, hq] at h
    | some q =>
      obtain rfl : s.answer (.rat q) = t := by simpa [exec, execScale, hq, answerWith] using h
      exact .answered _ _ rfl
  | u16le f off => exact extract_effect rfl h
  | i16le f off => exact extract_effect rfl h
  | i8 f off => exact extract_effect rfl h
  | u24le f off => exact extract_effect rfl h
  | text f a b => exact extract_effect rfl h
  | crcStep _ _ | crc8 _ | encode _ _ _ | round2c _ | fuel _ | clamp _ _ _ | tempSm _ =>
    obtain rfl := Host.Outcome.next.inj h
    exact .answered _ _ rfl

end Sys2Proof.Machine
end

