-- ==== Sys2Proof/Laws/PerInstr.lean ====
section
/-! SUPPORT. One lemma per row: its packet matches the row's `match` under its `mask` in the opcode table
(30_encoding R80). -/

namespace Sys2Proof.Laws.TableMatch

/-- Every packet of the row matches the row's pattern. -/
def Statement (i : Instr) : Prop :=
  ∀ T addr, i.fitsLayout = true → packedWord (encode T addr i) &&& (rowPattern i).2 = (rowPattern i).1

/-- A command's word under the mask that leaves the address free. -/
theorem command_word (op addr : Byte) :
    ((0x31#8).toNat <<< 16 ||| addr.toNat <<< 8 ||| op.toNat) &&& 0xFF00FF = 0x310000 + op.toNat := by
  revert op addr
  decide +kernel

/-- A response's word under the mask of its type byte. -/
theorem response_word (lead addr kind : Byte) :
    (lead.toNat <<< 16 ||| addr.toNat <<< 8 ||| kind.toNat) &&& 0x0000FF = kind.toNat := by
  have h : (0x0000FF : Nat) = 2 ^ 8 - 1 := rfl
  have hk : kind.toNat < 2 ^ 8 := kind.isLt
  rw [h, Nat.and_two_pow_sub_one_eq_mod]
  apply Nat.eq_of_testBit_eq
  intro j
  simp only [Nat.testBit_mod_two_pow, Nat.testBit_or, Nat.testBit_shiftLeft]
  by_cases hj : j < 8
  · simp [hj, show ¬ j ≥ 16 by omega, show ¬ j ≥ 8 by omega]
  · simp [hj, Nat.testBit_lt_two_pow (Nat.lt_of_lt_of_le hk (Nat.pow_le_pow_right (by decide) (by omega : 8 ≤ j)))]

theorem readLevel : Statement .readLevel := fun _ addr _ => command_word _ addr

theorem readInfo : Statement .readInfo := fun _ addr _ => command_word _ addr

theorem reqPeriodic : Statement .reqPeriodic := fun _ addr _ => command_word _ addr

theorem setMode (p : Byte) : Statement (.setMode p) := fun _ addr _ => command_word _ addr

theorem setInterval (p : Byte) : Statement (.setInterval p) := fun _ addr _ => command_word _ addr

theorem setFilter (p : Byte) : Statement (.setFilter p) := fun _ addr _ => command_word _ addr

theorem rspReading (f : ReadingFrame) : Statement (.rspReading f) := fun _ _ _ => response_word f.lead f.address _

theorem rspInfo (f : InfoFrame) : Statement (.rspInfo f) := fun _ _ _ => response_word f.lead f.address _

theorem rspOther (f : OtherFrame) : Statement (.rspOther f) := fun _ _ _ => Nat.and_zero _

theorem connect : Statement .connect := by
  simp [Statement, packedWord, Sys2Proof.encode, rowPattern, Machine.byteAt]

theorem tick : Statement .tick := by
  simp [Statement, packedWord, Sys2Proof.encode, rowPattern, Machine.byteAt]

theorem userPeriodic : Statement .userPeriodic := by
  simp [Statement, packedWord, Sys2Proof.encode, rowPattern, Machine.byteAt]

theorem userMode (v : HostValue) : Statement (.userMode v) := by
  simp [Statement, packedWord, Sys2Proof.encode, rowPattern, Machine.byteAt]

theorem userInterval (v : HostValue) : Statement (.userInterval v) := by
  simp [Statement, packedWord, Sys2Proof.encode, rowPattern, Machine.byteAt]

theorem userFilter (v : HostValue) : Statement (.userFilter v) := by
  simp [Statement, packedWord, Sys2Proof.encode, rowPattern, Machine.byteAt]

theorem rx (f : List Byte) : Statement (.rx f) := by
  simp [Statement, packedWord, Sys2Proof.encode, rowPattern, Machine.byteAt]

theorem close : Statement .close := by
  simp [Statement, packedWord, Sys2Proof.encode, rowPattern, Machine.byteAt]

theorem crcStep (c : Byte) (b : Byte) : Statement (.crcStep c b) := by
  simp [Statement, packedWord, Sys2Proof.encode, rowPattern, Machine.byteAt]

theorem crc8 (bs : List Byte) : Statement (.crc8 bs) := by
  simp [Statement, packedWord, Sys2Proof.encode, rowPattern, Machine.byteAt]

theorem encode (a : Byte) (op : Byte) (param : Option Byte) : Statement (.encode a op param) := by
  simp [Statement, packedWord, Sys2Proof.encode, rowPattern, Machine.byteAt]

theorem decode (f : List Byte) : Statement (.decode f) := by
  simp [Statement, packedWord, Sys2Proof.encode, rowPattern, Machine.byteAt]

theorem scale (x : Rat) (inMin : Rat) (inMax : Rat) (outMin : Rat) (outMax : Rat) : Statement (.scale x inMin inMax outMin outMax) := by
  simp [Statement, packedWord, Sys2Proof.encode, rowPattern, Machine.byteAt]

theorem round2c (q : Rat) : Statement (.round2c q) := by
  simp [Statement, packedWord, Sys2Proof.encode, rowPattern, Machine.byteAt]

theorem fuel (raw : BitVec 16) : Statement (.fuel raw) := by
  simp [Statement, packedWord, Sys2Proof.encode, rowPattern, Machine.byteAt]

theorem clamp (x : Rat) (lo : Rat) (hi : Rat) : Statement (.clamp x lo hi) := by
  simp [Statement, packedWord, Sys2Proof.encode, rowPattern, Machine.byteAt]

theorem tempSm (b : Byte) : Statement (.tempSm b) := by
  simp [Statement, packedWord, Sys2Proof.encode, rowPattern, Machine.byteAt]

theorem u16le (f : List Byte) (off : Nat) : Statement (.u16le f off) := by
  simp [Statement, packedWord, Sys2Proof.encode, rowPattern, Machine.byteAt]

theorem i16le (f : List Byte) (off : Nat) : Statement (.i16le f off) := by
  simp [Statement, packedWord, Sys2Proof.encode, rowPattern, Machine.byteAt]

theorem i8 (f : List Byte) (off : Nat) : Statement (.i8 f off) := by
  simp [Statement, packedWord, Sys2Proof.encode, rowPattern, Machine.byteAt]

theorem u24le (f : List Byte) (off : Nat) : Statement (.u24le f off) := by
  simp [Statement, packedWord, Sys2Proof.encode, rowPattern, Machine.byteAt]

theorem text (f : List Byte) (a b : Nat) : Statement (.text f a b) := by
  simp [Statement, packedWord, Sys2Proof.encode, rowPattern, Machine.byteAt]

end Sys2Proof.Laws.TableMatch
end

