-- ==== Sys2Proof/Tests/Slice0.lean ====
section
/-! SUPPORT. Tests. Every expected value is the spec's: 95_test_vectors by its vector number, or a rule of the section
files. Values that need table entries use the candidate table of 93_implementation_defined I1, which is not normative.
The last part gives every statement with hypotheses a concrete case that meets them. -/

namespace Sys2Proof.Tests

open Sys2Proof Sys2Proof.Machine

-- One theorem is checked at a time: the kernel evaluations need little memory, many waiting ones need much.
set_option Elab.async false

/-! ### Small states -/

/-- The first half of the table of 93_implementation_defined I1, as printed there. -/
def candidateLow : List Byte :=
  [0x00, 0x5E, 0xBC, 0xE2, 0x61, 0x3F, 0xDD, 0x83, 0xC2, 0x9C, 0x7E, 0x20, 0xA3, 0xFD, 0x1F, 0x41]
    ++ [0x9D, 0xC3, 0x21, 0x7F, 0xFC, 0xA2, 0x40, 0x1E, 0x5F, 0x01, 0xE3, 0xBD, 0x3E, 0x60, 0x82, 0xDC]
    ++ [0x23, 0x7D, 0x9F, 0xC1, 0x42, 0x1C, 0xFE, 0xA0, 0xE1, 0xBF, 0x5D, 0x03, 0x80, 0xDE, 0x3C, 0x62]
    ++ [0xBE, 0xE0, 0x02, 0x5C, 0xDF, 0x81, 0x63, 0x3D, 0x7C, 0x22, 0xC0, 0x9E, 0x1D, 0x43, 0xA1, 0xFF]
    ++ [0x46, 0x18, 0xFA, 0xA4, 0x27, 0x79, 0x9B, 0xC5, 0x84, 0xDA, 0x38, 0x66, 0xE5, 0xBB, 0x59, 0x07]
    ++ [0xDB, 0x85, 0x67, 0x39, 0xBA, 0xE4, 0x06, 0x58, 0x19, 0x47, 0xA5, 0xFB, 0x78, 0x26, 0xC4, 0x9A]
    ++ [0x65, 0x3B, 0xD9, 0x87, 0x04, 0x5A, 0xB8, 0xE6, 0xA7, 0xF9, 0x1B, 0x45, 0xC6, 0x98, 0x7A, 0x24]
    ++ [0xF8, 0xA6, 0x44, 0x1A, 0x99, 0xC7, 0x25, 0x7B, 0x3A, 0x64, 0x86, 0xD8, 0x5B, 0x05, 0xE7, 0xB9]

/-- The second half. -/
def candidateHigh : List Byte :=
  [0x8C, 0xD2, 0x30, 0x6E, 0xED, 0xB3, 0x51, 0x0F, 0x4E, 0x10, 0xF2, 0xAC, 0x2F, 0x71, 0x93, 0xCD]
    ++ [0x11, 0x4F, 0xAD, 0xF3, 0x70, 0x2E, 0xCC, 0x92, 0xD3, 0x8D, 0x6F, 0x31, 0xB2, 0xEC, 0x0E, 0x50]
    ++ [0xAF, 0xF1, 0x13, 0x4D, 0xCE, 0x90, 0x72, 0x2C, 0x6D, 0x33, 0xD1, 0x8F, 0x0C, 0x52, 0xB0, 0xEE]
    ++ [0x32, 0x6C, 0x8E, 0xD0, 0x53, 0x0D, 0xEF, 0xB1, 0xF0, 0xAE, 0x4C, 0x12, 0x91, 0xCF, 0x2D, 0x73]
    ++ [0xCA, 0x94, 0x76, 0x28, 0xAB, 0xF5, 0x17, 0x49, 0x08, 0x56, 0xB4, 0xEA, 0x69, 0x37, 0xD5, 0x8B]
    ++ [0x57, 0x09, 0xEB, 0xB5, 0x36, 0x68, 0x8A, 0xD4, 0x95, 0xCB, 0x29, 0x77, 0xF4, 0xAA, 0x48, 0x16]
    ++ [0xE9, 0xB7, 0x55, 0x0B, 0x88, 0xD6, 0x34, 0x6A, 0x2B, 0x75, 0x97, 0xC9, 0x4A, 0x14, 0xF6, 0xA8]
    ++ [0x74, 0x2A, 0xC8, 0x96, 0x15, 0x4B, 0xA9, 0xF7, 0xB6, 0xE8, 0x0A, 0x54, 0xD7, 0x89, 0x6B, 0x35]

/-- The candidate table of 93_implementation_defined I1. -/
def candidate : CrcTable :=
  ⟨⟨candidateLow ++ candidateHigh⟩, by decide +kernel⟩

/-- A bijective table: every entry is its own index. -/
def identityTable : CrcTable :=
  Vector.ofFn fun i => BitVec.ofFin i

/-- CFG_ADDRESS 3, no CFG_POLL_MS. -/
def cfg3 : CfgRegs :=
  { address := .integer 3, port := "p", baud := "9600", pollMs := none, pollDefaultMs := 1000 }

/-- Power-on reset with CFG_ADDRESS 3 and the candidate table. -/
def closed3 : State :=
  { State.reset with cfg := cfg3, crcTable := candidate }

/-- An open connection before its first poll. -/
def open3 : State :=
  { closed3 with link := .opened, addr := some 3, timer := some 1000 }

/-- An open connection after its first poll. -/
def steady3 : State :=
  { open3 with phase := .steadyPolling }

/-- The same state with the write draw false. -/
def txFails (s : State) : State :=
  { s with draws := ⟨true, false⟩ }

/-- The same state with another CFG_ADDRESS. -/
def withAddress (v : HostValue) (s : State) : State :=
  { s with cfg := { s.cfg with address := v } }

/-- The next state, if there is one. -/
def nextOf : Host.Outcome State Fault Refusal → Option State
  | .next t => some t
  | _ => none

/-- The connection of a state. -/
def session (t : State) : (Link × Phase) × Option Byte × Option DeviceInfo × Option Nat :=
  ((t.link, t.phase), t.addr, t.info, t.timer)

/-- The refusal, if it is one. -/
def refusalOf : Host.Outcome State Fault Refusal → Option Refusal
  | .refused r => some r
  | _ => none

/-- What a free-standing operation answered. -/
def answerOf (i : Instr) (s : State) : Option OpResult :=
  (nextOf (exec i s)).bind (·.result)

/-- The outputs and the status the step ended with, then the link and the polling state it left. -/
def endOf (o : Host.Outcome State Fault Refusal) : Option (List Emission × Status × Link × Phase) :=
  (nextOf o).bind fun t => t.trace.getLast?.map fun e => (e.outputs, e.status, t.link, t.phase)

/-! ### The checksum unit and I1's table -/

/-- I1: three entries of the printed table. -/
theorem test_candidate_entries :
    candidate.get 0x00 = 0x00 ∧ candidate.get 0x31 = 0xE0 ∧ candidate.get 0xFF = 0x35 := by decide +kernel

/-- L2-8, at the entry of L2-5. -/
theorem test_crcStep_indexes_by_xor : answerOf (.crcStep 0x30 0x01) closed3 = some (.byte 0xE0) := by decide +kernel

/-- L2-6 and L1-2. -/
theorem test_crc8_golden :
    answerOf (.crc8 [0x31, 0x03]) closed3 = some (.byte 0x0B) ∧
    answerOf (.crc8 [0x3E, 0x03, 0x06, 0x30, 0x10, 0x20, 0x20, 0x30]) closed3 = some (.byte 0xE7) := by decide +kernel

/-- L2-10. -/
theorem test_frameOk : frameOk candidate [0x31, 0x03, 0x06, 0xFD] = true ∧
    frameOk candidate [0x31, 0x03, 0x06, 0xFC] = false := by decide +kernel

/-! ### Encoder and extractors -/

/-- L2-11 and L2-14. -/
theorem test_encode_frames :
    answerOf (.encode 3 0x06 none) closed3 = some (.bytes [0x31, 0x03, 0x06, 0xFD]) ∧
    answerOf (.encode 3 0x17 (some 2)) closed3 = some (.bytes [0x31, 0x03, 0x17, 0x02, 0x1D]) := by decide +kernel

/-- The TEMP_SM row of section 2.3. -/
theorem test_tempSm_row :
    [0x00, 0x30, 0x7F, 0x80, 0x81, 0x85, 0xFF].map tempSm = [0, 48, 127, 0, -1, -5, -127] := by decide +kernel

/-- L2-E1. -/
theorem test_u16le : answerOf (.u16le [0xAA, 0x10, 0x20] 1) closed3 = some (.nat 8208) := by decide +kernel

/-- L2-E3 and L2-E6. -/
theorem test_i16le : answerOf (.i16le [0x00, 0x80] 0) closed3 = some (.int (-32768)) ∧
    answerOf (.i16le [0xFF, 0x0F] 0) closed3 = some (.int 4095) := by decide +kernel

/-- L2-E7 and L2-E8. -/
theorem test_i8 : answerOf (.i8 [0x00, 0xC8] 1) closed3 = some (.int (-56)) ∧
    answerOf (.i8 [0x7F] 0) closed3 = some (.int 127) := by decide +kernel

/-- L2-E9 and L2-E10. -/
theorem test_u24le : answerOf (.u24le [0x01, 0x02, 0x03] 0) closed3 = some (.nat 197121) ∧
    answerOf (.u24le [0x00, 0xFF, 0xFF, 0xFF] 1) closed3 = some (.nat 16777215) := by decide +kernel

/-- 41_frame_codec R130: half-open, bytes unchanged. -/
theorem test_text : answerOf (.text [0x41, 0x00, 0xFF, 0x42] 1 3) closed3 = some (.bytes [0x00, 0xFF]) := by
  decide +kernel

/-! ### Scaling -/

/-- Section 2.5, CLAMP: the inverted range among them. -/
theorem test_clamp : answerOf (.clamp 5000 0 4095) closed3 = some (.rat 4095) ∧
    answerOf (.clamp 7 10 3) closed3 = some (.rat 10) := by decide +kernel

/-- Section 2.5, SCALE. -/
theorem test_scale : answerOf (.scale 2048 0 4095 0 18) closed3 = some (.rat (4096 / 455)) ∧
    answerOf (.scale 7 10 3 5 9) closed3 = some (.rat 5) ∧ answerOf (.scale 0 0 10 10 0) closed3 = some (.rat 10) := by
  decide +kernel

/-- Section 2.5, ROUND2C, with its tie. -/
theorem test_round2c : answerOf (.round2c (4096 / 455)) closed3 = some (.int 900) ∧
    answerOf (.round2c (1 / 200)) closed3 = some (.int 1) := by decide +kernel

/-- Section 2.5, FUEL. -/
theorem test_fuel_row :
    [0, 1, 2, 3, 4, 5, 1000, 2047, 2048, 4094, 4095, 4096, 8208, 65535].map fuel =
      [0, 0, 1, 1, 2, 2, 440, 900, 900, 1800, 1800, 1800, 1800, 1800] := by decide +kernel

/-! ### Decoder outcomes -/

/-- The L1-3 frame under I1. -/
def readingFixture : List Byte :=
  [0x3E, 0x03, 0x06, 0x30, 0x10, 0x20, 0x20, 0x30, 0xE7]

/-- The 43 bytes of L2-25 before its checksum. -/
def infoBody : List Byte :=
  [0x3E, 0x03, 0x10] ++ [0x4C, 0x4C, 0x53, 0x20, 0x32, 0x30, 0x31, 0x36, 0x30, 0x2D, 0x31, 0x30, 0, 0, 0, 0]
    ++ [0x76, 0x33, 0x2E, 0x32, 0, 0, 0, 0, 0, 0, 0]
    ++ [0x01, 0xC8, 0x0F, 0x00, 0x80, 0xFF, 0x0F, 0x01, 0x02, 0x03, 0xFF, 0xFF, 0xFF]

/-- The record of L2-25. -/
def infoRecord : DeviceInfo :=
  { model := [0x4C, 0x4C, 0x53, 0x20, 0x32, 0x30, 0x31, 0x36, 0x30, 0x2D, 0x31, 0x30, 0, 0, 0, 0]
    firmwareVersion := [0x76, 0x33, 0x2E, 0x32, 0, 0, 0, 0, 0, 0, 0]
    mode := 1, interval := -56, filterDepth := 15, calibrationMin := -32768, calibrationMax := 4095
    counter1 := 197121, counter2 := 16777215 }

/-- L1-3. -/
theorem test_rx_reading : endOf (exec (.rx readingFixture) open3) =
    some ([.sink (.reading ⟨48, 8208, 1800, 12320⟩)], .decReading ⟨48, 8208, 1800, 12320⟩, .opened, .awaitingFirstPoll) := by
  decide +kernel

/-- L1-4 under I1. -/
theorem test_rx_bad_checksum : endOf (exec (.rx (readingFixture.dropLast ++ [0xE6])) open3) =
    some ([], .dropBadChecksum 0xE7 0xE6, .opened, .awaitingFirstPoll) := by decide +kernel

/-- L2-57: the record of L2-25 is emitted and stored; I1's checksum is BF. -/
theorem test_rspInfo_stores_record :
    (nextOf (exec (.rspInfo (infoFrameOf (infoBody ++ [0xBF]))) open3)).map (fun t => (t.info, t.trace)) =
      some (some infoRecord, [⟨.event 0x07, [.sink (.deviceInfo infoRecord)], .decInfo infoRecord⟩]) := by decide +kernel

/-- L2-27, and L2-28 with an extra byte. I1's table gives the body the checksum 2A; the 50 that 95_test_vectors prints
beside L2-27 is not the value of 40_checksum R101 under that table (log 19). -/
theorem test_rspReading_extra_byte :
    endOf (exec (.rspReading ⟨0x3E, 0x03, 0x85, 0x0FFF, 0x1234, [], 0x2A⟩) open3) =
      endOf (exec (.rx (appendCrc candidate [0x3E, 0x03, 0x06, 0x85, 0xFF, 0x0F, 0x34, 0x12, 0xAA])) open3) ∧
    endOf (exec (.rspReading ⟨0x3E, 0x03, 0x85, 0x0FFF, 0x1234, [], 0x2A⟩) open3) =
      some ([.sink (.reading ⟨-5, 4095, 1800, 4660⟩)], .decReading ⟨-5, 4095, 1800, 4660⟩, .opened,
        .awaitingFirstPoll) := by decide +kernel

/-- L2-26. -/
theorem test_rspOther_ignored :
    endOf (exec (.rspOther ⟨0x3E, 0x03, 0x55, [0x01], crc8 candidate [0x3E, 0x03, 0x55, 0x01]⟩) open3) =
      some ([], .acceptUnrecognized 0x55, .opened, .awaitingFirstPoll) := by decide +kernel

/-- L2-20 and L2-24, as DECODE. -/
theorem test_decode_short_for_type :
    answerOf (.decode [0x31, 0x03, 0x06, 0xFD]) open3 = some (.decoded (.dropShortForType 0x06 4)) ∧
    answerOf (.decode (appendCrc candidate (infoBody.take 42))) open3 = some (.decoded (.dropShortForType 0x10 43)) := by
  decide +kernel

/-! ### Events and commands -/

/-- L2-41: the connection reset. -/
theorem test_connect_resets_session :
    (nextOf (exec .connect { steady3 with link := .closed, info := some infoRecord, timer := none })).map
      session =
      some ((.opened, .awaitingFirstPoll), some 3, none, some 1000) := by decide +kernel

/-- L2-58 and L2-43. -/
theorem test_connect_refused :
    refusalOf (exec .connect (withAddress (.integer 256) closed3)) = some .cfgAddressOutOfRange ∧
    refusalOf (exec .connect open3) = some .connectWhileOpen := by decide +kernel

/-- L2-45: the phase moves although the write failed. -/
theorem test_tick_first_write_fails : endOf (exec .tick (txFails open3)) =
    some ([.tx [0x31, 0x03, 0x10, 0xBD] false], .faultTransportWrite [0x31, 0x03, 0x10, 0xBD], .closed,
      .steadyPolling) := by decide +kernel

/-- L2-46. -/
theorem test_tick_steady : endOf (exec .tick steady3) =
    some ([.tx [0x31, 0x03, 0x06, 0xFD] true], .ok, .opened, .steadyPolling) := by decide +kernel

/-- L2-49. -/
theorem test_userPeriodic : endOf (exec .userPeriodic steady3) =
    some ([.tx [0x31, 0x03, 0x07, 0xA3] true], .ok, .opened, .steadyPolling) := by decide +kernel

/-- L2-50 and L2-51. -/
theorem test_userMode :
    endOf (exec (.userMode (.integer 5)) steady3) =
      some ([.tx [0x31, 0x03, 0x17, 0x02, 0x1D] true], .ok, .opened, .steadyPolling) ∧
    endOf (exec (.userMode (.integer (-3))) steady3) =
      some ([.tx [0x31, 0x03, 0x17, 0x00, 0xA1] true], .ok, .opened, .steadyPolling) := by decide +kernel

/-- L2-52 and L1-9. -/
theorem test_userInterval :
    endOf (exec (.userInterval (.integer 300)) steady3) =
      some ([.tx [0x31, 0x03, 0x13, 0xFF, 0xAF] true], .ok, .opened, .steadyPolling) ∧
    endOf (exec (.userInterval (.integer (-1))) steady3) =
      some ([.tx [0x31, 0x03, 0x13, 0x00, 0x9A] true], .ok, .opened, .steadyPolling) := by decide +kernel

/-- L2-53. -/
theorem test_userFilter_write_fails : endOf (exec (.userFilter (.integer 21)) (txFails steady3)) =
    some ([.tx [0x31, 0x03, 0x0E, 0x14, 0x03] false], .faultTransportWrite [0x31, 0x03, 0x0E, 0x14, 0x03], .closed,
      .steadyPolling) := by decide +kernel

/-- L2-55: polling state, address and record keep their values. -/
theorem test_close : (nextOf (exec .close { steady3 with info := some infoRecord })).map
      session =
    some ((.closed, .steadyPolling), some 3, some infoRecord, none) := by decide +kernel

/-- The command rows send the frames of L2-11, L2-12 and L2-13. -/
theorem test_command_rows_without_parameter :
    [Instr.readLevel, .readInfo, .reqPeriodic].map (fun i => (endOf (exec i open3)).map (·.1)) =
      [some [.tx [0x31, 0x03, 0x06, 0xFD] true], some [.tx [0x31, 0x03, 0x10, 0xBD] true],
        some [.tx [0x31, 0x03, 0x07, 0xA3] true]] := by decide +kernel

/-- The command rows with a parameter send the frames of L2-14, L2-17 and L2-18, the first and the last clamped. -/
theorem test_command_rows_with_parameter :
    [Instr.setMode 9, .setInterval 255, .setFilter 21].map (fun i => (endOf (exec i open3)).map (·.1)) =
      [some [.tx [0x31, 0x03, 0x17, 0x02, 0x1D] true], some [.tx [0x31, 0x03, 0x13, 0xFF, 0xAF] true],
        some [.tx [0x31, 0x03, 0x0E, 0x14, 0x03] true]] := by decide +kernel

/-- P2's fifth to eighth lines and P4's third and last, as text (30_encoding R84). -/
theorem test_parseScript :
    parseScript "user periodic   # TX\nuser interval 300\n\nuser filter -21 !txfail\nrx 3E 0a\nconnect !openfail\nclose".toList =
      some [.userPeriodic true, .userInterval 300 true, .userFilter (-21) false, .rx [0x3E, 0x0A], .connect false,
        .close] := by decide +kernel

/-- 30_encoding R84: a suffix that is not the line's own is not of the notation. -/
theorem test_parseScript_refuses : parseScript "connect !txfail".toList = none := by decide +kernel

/-! ### Every row's decoding, from words and packets written out from 30_encoding R71 to R75, R80, R83 -/

/-- CMD4 and CMD5 by R80: the address is free. -/
theorem test_decode_command_words :
    decodeTableWord 24 0x310306 = some .readLevel ∧ decodeTableWord 24 0x31FF10 = some .readInfo ∧
    decodeTableWord 24 0x310007 = some .reqPeriodic ∧ decodeTableWord 24 0x310317 = some (.setMode 0) ∧
    decodeTableWord 24 0x310313 = some (.setInterval 0) ∧ decodeTableWord 24 0x31030E = some (.setFilter 0) := by
  decide +kernel

/-- L2-14, L2-17 and L2-18 as bytes. -/
theorem test_decode_command_frames :
    decode ⟨.outbound, [0x31, 0x03, 0x17, 0x02, 0x1D]⟩ = .ok (.setMode 2) ∧
    decode ⟨.outbound, [0x31, 0x03, 0x13, 0xFF, 0xAF]⟩ = .ok (.setInterval 0xFF) ∧
    decode ⟨.outbound, [0x31, 0x03, 0x0E, 0x14, 0x03]⟩ = .ok (.setFilter 20) := by decide +kernel

/-- RSP9 by R73. -/
theorem test_decode_rspReading : decode ⟨.inbound, readingFixture⟩ =
    .ok (.rspReading ⟨0x3E, 0x03, 0x30, 0x2010, 0x3020, [], 0xE7⟩) := by decide +kernel

/-- RSP44 by R74. -/
theorem test_decode_rspInfo : decode ⟨.inbound, infoBody ++ [0xBF]⟩ =
    .ok (.rspInfo
      { lead := 0x3E, address := 0x03, model := infoRecord.model, firmwareVersion := infoRecord.firmwareVersion
        mode := 0x01, interval := 0xC8, filterDepth := 0x0F, calibrationMin := 0x8000, calibrationMax := 0x0FFF
        counter1 := 0x030201, counter2 := 0xFFFFFF, extra := [], checksum := 0xBF }) := by decide +kernel

/-- RSPANY by R75. -/
theorem test_decode_rspOther : decode ⟨.inbound, [0x3E, 0x03, 0x55, 0x01, 0xAA]⟩ =
    .ok (.rspOther ⟨0x3E, 0x03, 0x55, [0x01], 0xAA⟩) := by decide +kernel

/-- The response words of R80. -/
theorem test_decode_response_words :
    decodeTableWord 24 0x3E0306 = some (.rspReading ⟨0x3E, 0x03, 0, 0, 0, [], 0⟩) ∧
    decodeTableWord 24 0x3E0355 = some (.rspOther ⟨0x3E, 0x03, 0x55, [], 0⟩) ∧
    decodeTableWord 24 0x000000 = some (.rspOther ⟨0, 0, 0, [], 0⟩) := by decide +kernel

/-- Event tags by R83. -/
theorem test_decode_event_tags :
    [0x01, 0x02, 0x03, 0x07, 0x08].map (decodeTableWord 8) =
      [some .connect, some .tick, some .userPeriodic, some (.rx []), some .close] := by decide +kernel

/-- Event tags with an operand; the operand bytes are the model's (log 5). -/
theorem test_decode_user_events :
    decode ⟨.event, [0x04, 0x00, 0x0A]⟩ = .ok (.userMode (.integer 5)) ∧
    decode ⟨.event, [0x05, 0x00, 0x01]⟩ = .ok (.userInterval (.integer (-1))) ∧
    decode ⟨.event, [0x06, 0x00, 0xAC, 0x02]⟩ = .ok (.userFilter (.integer 150)) ∧
    decode ⟨.event, [0x04, 0x01]⟩ = .ok (.userMode .notInteger) ∧
    decode ⟨.event, [0x07, 0x3E, 0x03]⟩ = .ok (.rx [0x3E, 0x03]) := by decide +kernel

/-- Operation tags by R83, the ones on bytes. -/
theorem test_decode_operation_tags :
    decode ⟨.event, [0x10, 0x0A, 0x0B]⟩ = .ok (.crcStep 0x0A 0x0B) ∧
    decode ⟨.event, [0x11, 0x0A, 0x0B]⟩ = .ok (.crc8 [0x0A, 0x0B]) ∧
    decode ⟨.event, [0x12, 0x03, 0x17, 0x01, 0x02]⟩ = .ok (.encode 3 0x17 (some 2)) ∧
    decode ⟨.event, [0x13, 0x3E]⟩ = .ok (.decode [0x3E]) ∧
    decode ⟨.event, [0x16, 0x10, 0x20]⟩ = .ok (.fuel 0x2010) ∧ decode ⟨.event, [0x18, 0x85]⟩ = .ok (.tempSm 0x85) := by
  decide +kernel

/-- Operation tags by R83, the ones on rationals. -/
theorem test_decode_rational_operations :
    decode ⟨.event, [0x14, 0x02, 0, 0, 0, 0x04, 0, 0x01, 0, 0x06, 0]⟩ = .ok (.scale 1 0 2 (-1) 3) ∧
    decode ⟨.event, [0x15, 0x02, 0x02]⟩ = .ok (.round2c (1 / 3)) ∧
    decode ⟨.event, [0x17, 0x02, 0, 0, 0, 0x04, 0]⟩ = .ok (.clamp 1 0 2) := by decide +kernel

/-- Operation tags by R83, the extractors. -/
theorem test_decode_extractors :
    decode ⟨.event, [0x19, 0x01, 0xAA, 0x10, 0x20]⟩ = .ok (.u16le [0xAA, 0x10, 0x20] 1) ∧
    decode ⟨.event, [0x1A, 0x00, 0x10, 0x20]⟩ = .ok (.i16le [0x10, 0x20] 0) ∧
    decode ⟨.event, [0x1B, 0x01, 0x10, 0x20]⟩ = .ok (.i8 [0x10, 0x20] 1) ∧
    decode ⟨.event, [0x1C, 0x00, 1, 2, 3]⟩ = .ok (.u24le [1, 2, 3] 0) ∧
    decode ⟨.event, [0x1D, 0x01, 0x02, 0x41, 0x42]⟩ = .ok (.text [0x41, 0x42] 1 2) := by decide +kernel

/-- No row: a tag R83 does not list, a wrong command lead, a command of the wrong length, a missing operand. -/
theorem test_decode_rejects :
    decode ⟨.event, [0x09]⟩ = .error (.unknownTag 0x09) ∧ decode ⟨.event, []⟩ = .error .emptyPacket ∧
    decode ⟨.outbound, [0x3E, 0x03, 0x06, 0x00]⟩ = .error .badCommandLead ∧
    decode ⟨.outbound, [0x31, 0x03, 0x06, 0x00, 0x00]⟩ = .error (.badCommandLength 5) ∧
    decode ⟨.outbound, [0x31, 0x03, 0x08, 0x00]⟩ = .error (.unknownOpcode 0x08) ∧
    decode ⟨.event, [0x10, 0x0A]⟩ = .error .truncatedOperand ∧ decode ⟨.event, [0x02, 0x00]⟩ = .error .trailingBytes ∧
    decode ⟨.event, [0x12, 3, 6, 2]⟩ = .error (.badOptionByte 2) ∧
    decode ⟨.event, [0x04, 7]⟩ = .error (.badValueKind 7) := by decide +kernel

/-! ### WellFormed: an ill-formed term for each check -/

/-- Layout checks (R74, R75). -/
theorem test_wellFormed_refuses_layout :
    (Instr.rspInfo { infoFrameOf infoBody with model := [] }).wellFormed = false ∧
    (Instr.rspInfo { infoFrameOf infoBody with firmwareVersion := [0] }).wellFormed = false ∧
    (Instr.rspOther ⟨0, 0, 0x06, [], 0⟩).wellFormed = false ∧
    (Instr.rspOther ⟨0, 0, 0x10, [], 0⟩).wellFormed = false := by decide +kernel

/-- Operand checks (R77, R188, R162, R126 to R130). -/
theorem test_wellFormed_refuses_operands :
    (Instr.setMode 3).wellFormed = false ∧ (Instr.setFilter 21).wellFormed = false ∧
    (Instr.userMode .notInteger).wellFormed = false ∧ (Instr.userInterval .notInteger).wellFormed = false ∧
    (Instr.userFilter .notInteger).wellFormed = false ∧ (Instr.scale 3 7 7 0 1).wellFormed = false ∧
    (Instr.u16le [1, 2] 1).wellFormed = false ∧ (Instr.i16le [1, 2] 1).wellFormed = false ∧
    (Instr.i8 [1, 2] 2).wellFormed = false ∧ (Instr.u24le [1, 2] 0).wellFormed = false ∧
    (Instr.text [1, 2] 0 3).wellFormed = false := by decide +kernel

/-- Their neighbours at the boundary are well-formed. -/
theorem test_wellFormed_accepts :
    (Instr.setMode 2).wellFormed = true ∧ (Instr.setFilter 20).wellFormed = true ∧
    (Instr.userMode (.integer 5)).wellFormed = true ∧ (Instr.u16le [1, 2] 0).wellFormed = true ∧
    (Instr.i8 [1, 2] 1).wellFormed = true ∧ (Instr.u24le [1, 2, 3] 0).wellFormed = true ∧
    (Instr.text [1, 2] 0 2).wellFormed = true ∧ (Instr.scale 3 7 8 0 1).wellFormed = true := by decide +kernel

/-! ### Witnesses: a case that meets the hypotheses of each statement that has some -/

/-- DecodeEncodeRoundTrip, on the two rows whose layout is checked. -/
theorem witness_DecodeEncodeRoundTrip :
    (Instr.rspInfo (infoFrameOf (infoBody ++ [0xBF]))).fitsLayout = true ∧
    (Instr.rspOther ⟨0x3E, 0x03, 0x55, [0x01], 0xAA⟩).fitsLayout = true := by decide +kernel

/-- StepRunsDecodedRow, both clauses. -/
theorem witness_StepRunsDecodedRow :
    (∃ d rest i, ({ open3 with inbox := [⟨⟨.event, [0x02]⟩, ⟨true, false⟩⟩] } : State).inbox = d :: rest ∧
      decode d.packet = .ok i) ∧
    decodeTableWord 8 0x02 = some .tick :=
  ⟨⟨_, _, .tick, rfl, by decide +kernel⟩, by decide +kernel⟩

/-- StepWithoutRow, both clauses. -/
theorem witness_StepWithoutRow :
    closed3.inbox = [] ∧
    ∃ d rest e, ({ open3 with inbox := [⟨⟨.event, [0x09]⟩, ⟨true, true⟩⟩] } : State).inbox = d :: rest ∧
      decode d.packet = .error e :=
  ⟨rfl, _, _, .unknownTag 0x09, rfl, by decide +kernel⟩

/-- Every entry of the identity table is its own index. -/
theorem identityTable_get (i : Fin 256) : (identityTable.get i).toNat = i := by
  have h : identityTable[i.val]'i.isLt = BitVec.ofFin i := Vector.getElem_ofFn ..
  exact congrArg BitVec.toNat h

/-- BijectiveTableDetectsOneByteChange. -/
theorem witness_BijectiveTable :
    Function.Bijective (fun i : Fin 256 => identityTable.get i) ∧ (0x30 : Byte) ≠ 0x31 := by
  refine ⟨⟨fun i j h => ?_, fun b => ⟨b.toFin, ?_⟩⟩, by decide⟩
  · have h' := congrArg BitVec.toNat (show identityTable.get i = identityTable.get j from h)
    rwa [identityTable_get, identityTable_get, ← Fin.ext_iff] at h'
  · exact BitVec.eq_of_toNat_eq (identityTable_get b.toFin)

/-- TextAnswersRawBytes, the crossing offsets, at equality. -/
theorem witness_TextCrossing : (2 : Nat) ≤ 2 ∧ 2 ≤ ([0x41, 0x42] : List Byte).length := by decide

/-- ExtractorOutsideFrameFaults, each clause one byte past the last legal offset. -/
theorem witness_ExtractorOutside :
    ([1, 2] : List Byte).length < 1 + 2 ∧ ([1, 2] : List Byte).length < 2 + 1 ∧ ([1, 2] : List Byte).length < 0 + 3 ∧
    ([1, 2] : List Byte).length < 3 := by decide

/-- ClampAnswersUpperThenLower, both cases of the range, at equality and inverted. -/
theorem witness_Clamp : (4 : Rat) ≤ 4 ∧ (3 : Rat) < 10 := by norm_num

/-- ScaleAnswersLinearMap: unequal bounds, rising and inverted. -/
theorem witness_Scale : (4095 : Rat) ≠ 0 ∧ (0 : Rat) < 4095 ∧ (3 : Rat) ≠ 10 ∧ (3 : Rat) < 10 := by norm_num

/-- FuelScaleIsMonotone: the ends of the range, one point beyond each, and two levels. -/
theorem witness_FuelScale :
    (0 : Rat) ≤ 0 ∧ (0 : Rat) ≤ 4095 ∧ (4095 : Rat) ≤ 4095 ∧ (-1 : Rat) ≤ 0 ∧ (4095 : Rat) ≤ 4096 ∧
    (4094 : Nat) ≤ 4095 := by norm_num

/-- ConnectOpensConnection and FailedOpenChangesNoEngineState, with CFG_ADDRESS at each end of its range. -/
theorem witness_Connect :
    closed3.link = .closed ∧ closed3.draws.openOk = true ∧
    ({ closed3 with draws := ⟨false, true⟩ } : State).draws.openOk = false ∧
    (withAddress (.integer 0) closed3).cfg.address = .integer 0 ∧
    (withAddress (.integer 255) closed3).cfg.address = .integer 255 ∧ (0 : Int) ≤ 0 ∧ (255 : Int) ≤ 255 := by decide

/-- RefusalsByReason: the address one past each end, and no integer. -/
theorem witness_Refusals :
    open3.link = .opened ∧ closed3.link = .closed ∧
    (∀ v, (withAddress (.integer (-1)) closed3).cfg.address = .integer v → v < 0 ∨ 255 < v) ∧
    (∀ v, (withAddress (.integer 256) closed3).cfg.address = .integer v → v < 0 ∨ 255 < v) ∧
    (∀ v, (withAddress .notInteger closed3).cfg.address = .integer v → v < 0 ∨ 255 < v) ∧
    exec .connect open3 = .refused .connectWhileOpen := by
  refine ⟨rfl, rfl, ?_, ?_, ?_, rfl⟩ <;> intro v h <;> simp only [withAddress, HostValue.integer.injEq, reduceCtorEq] at h
  all_goals omega

/-- ClosedLinkIgnoresEvents and ClosedLinkIgnoresFrameRows. -/
theorem witness_ClosedLink : closed3.link = .closed := rfl

/-- FirstTickSendsReadInfo, SteadyTickSendsReadLevel, UserPeriodicSendsReqPeriodic and CommandRowsSendTheirPacket, with
either draw. -/
theorem witness_Sending :
    open3.link = .opened ∧ open3.phase = .awaitingFirstPoll ∧ open3.addr = some 3 ∧ steady3.link = .opened ∧
    steady3.phase = .steadyPolling ∧ steady3.addr = some 3 ∧ steady3.draws.txOk = true ∧
    (txFails steady3).draws.txOk = false := by decide

/-- UserModeSendsClampedMode: below, at and above each end. -/
theorem witness_UserMode : ∀ c ∈ [((0 : Byte), (-1 : Int)), (0, 0), (1, 1), (2, 2), (2, 3)],
    (c.1.toNat : Int) = (if c.2 ≤ 0 then 0 else if 2 ≤ c.2 then 2 else c.2) := by decide

/-- UserIntervalSendsClampedInterval: below, at and above each end. -/
theorem witness_UserInterval : ∀ c ∈ [((0 : Byte), (-1 : Int)), (0, 0), (255, 255), (255, 256)],
    (c.1.toNat : Int) = (if c.2 < 0 then 0 else if 255 < c.2 then 255 else c.2) := by decide

/-- UserFilterSendsClampedDepth: below, at and above each end. -/
theorem witness_UserFilter : ∀ c ∈ [((0 : Byte), (-1 : Int)), (0, 0), (20, 20), (20, 21)],
    (c.1.toNat : Int) = (if c.2 < 0 then 0 else if 20 < c.2 then 20 else c.2) := by decide

/-- SendWithoutLatchedAddressFaults. -/
theorem witness_SendWithoutAddress :
    ({ open3 with addr := none } : State).link = .opened ∧ ({ open3 with addr := none } : State).addr = none ∧
    Instr.tick ∈ [Instr.readLevel, .tick] := by decide

/-- ReadingFrameIsDelivered, InfoFrameIsStoredAndDelivered and OtherFrameIsAcceptedAndIgnored: L1-3, L2-25, L2-26. -/
theorem witness_ValidFrames :
    open3.link = .opened ∧
    (0xE7 : Byte) = crc8 open3.crcTable
      (readingFrameBytes ⟨0x3E, 0x03, 0x30, 0x2010, 0x3020, [], 0xE7⟩).dropLast ∧
    (Instr.rspInfo (infoFrameOf (infoBody ++ [0xBF]))).fitsLayout = true ∧
    (infoFrameOf (infoBody ++ [0xBF])).checksum =
      crc8 open3.crcTable (infoFrameBytes (infoFrameOf (infoBody ++ [0xBF]))).dropLast ∧
    (Instr.rspOther ⟨0x3E, 0x03, 0x55, [], crc8 candidate [0x3E, 0x03, 0x55]⟩).fitsLayout = true ∧
    crc8 candidate [0x3E, 0x03, 0x55] = crc8 open3.crcTable
      (otherFrameBytes ⟨0x3E, 0x03, 0x55, [], crc8 candidate [0x3E, 0x03, 0x55]⟩).dropLast := by decide +kernel

/-- RxChecksInOrder: each clause at the boundary of its lengths. -/
theorem witness_RxChecks :
    open3.link = .opened ∧ ([0x3E, 0x03, 0x06] : List Byte).length < 4 ∧
    (4 ≤ ([0x31, 0x03, 0x06] ++ [0x00] : List Byte).length ∧ (0x00 : Byte) ≠ crc8 open3.crcTable [0x31, 0x03, 0x06]) ∧
    (∀ c ∈ [([0x3E, 0x03, 0x06, 0, 0, 0, 0], (0x06 : Byte), 8), ([0x3E, 0x03, 0x06, 0, 0, 0, 0, 0], 0x06, 9),
        (infoBody.take 42, 0x10, 43), (infoBody, 0x10, 44), ([0x3E, 0x03, 0x55], 0x55, 4)],
      let f := appendCrc open3.crcTable c.1
      f.length = c.2.2 ∧ frameOk open3.crcTable f = true ∧ f[2]? = some c.2.1) := by decide +kernel

/-- AlteredLastByteIsDropped: L1-4 under I1, and the two lengths where its clauses meet. -/
theorem witness_AlteredLastByte :
    open3.link = .opened ∧ (0xE6 : Byte) ≠ crc8 open3.crcTable readingFixture.dropLast ∧
    (0x00 : Byte) ≠ crc8 open3.crcTable [0x31, 0x03] ∧ (0x00 : Byte) ≠ crc8 open3.crcTable [0x31, 0x03, 0x06] := by
  decide +kernel

/-- DecodeOutcomeDependsOnFrameAndTableOnly and RxIsDecodeWhileOpen. -/
theorem witness_DecodeOutcome : closed3.crcTable = candidate ∧ open3.crcTable = candidate ∧ open3.link = .opened :=
  ⟨rfl, rfl, rfl⟩

/-- OnlyConnectAndTickWritePhase: a first TICK, and a CONNECT of a closed session in SteadyPolling. -/
theorem witness_PhaseWriters :
    (∃ t, exec .tick open3 = .next t ∧ t.phase ≠ open3.phase) ∧
    ∃ t, exec .connect { steady3 with link := .closed } = .next t ∧ t.phase ≠ steady3.phase :=
  ⟨⟨_, rfl, by decide⟩, ⟨_, rfl, by decide⟩⟩

/-- OnlyConnectWritesAddress. -/
theorem witness_AddressWriter : ∃ t, exec .connect closed3 = .next t ∧ t.addr ≠ closed3.addr :=
  ⟨_, rfl, by decide⟩

/-- LinkWriters: an opening, a closing, and a failed write. -/
theorem witness_LinkWriters :
    (∃ t, exec .connect closed3 = .next t ∧ closed3.link = .closed ∧ t.link = .opened) ∧
    (∃ t, exec .close open3 = .next t ∧ open3.link = .opened ∧ t.link = .closed) ∧
    ∃ t, exec .userPeriodic (txFails open3) = .next t ∧ (txFails open3).link = .opened ∧ t.link = .closed :=
  ⟨⟨_, rfl, rfl, rfl⟩, ⟨_, rfl, rfl, rfl⟩, ⟨_, rfl, rfl, rfl⟩⟩

/-- SessionRecordWriters: a CONNECT after an earlier session, and the L2-25 frame. -/
theorem witness_RecordWriters :
    (∃ t, exec .connect { closed3 with info := some infoRecord } = .next t ∧ t.info ≠ some infoRecord) ∧
    ∃ t, exec (.rx (infoBody ++ [0xBF])) open3 = .next t ∧ t.info ≠ open3.info :=
  ⟨⟨_, rfl, by decide⟩, ⟨_, rfl, by decide +kernel⟩⟩

/-- UserEventsKeepSession, with the write failing. -/
theorem witness_UserEvents :
    ∃ t, exec (.userMode (.integer 5)) (txFails steady3) = .next t ∧ t.link ≠ (txFails steady3).link :=
  ⟨_, rfl, by decide⟩

/-- EveryEventEndsWithOneStatus. -/
theorem witness_EventStatus : isEvent .tick = true ∧ ∃ t, exec .tick open3 = .next t := ⟨rfl, _, rfl⟩

/-- A state with a delivery meets the session invariant. -/
theorem witness_SessionInv : SessionInv { open3 with inbox := [⟨⟨.event, [0x02]⟩, ⟨true, true⟩⟩], info := some infoRecord } where
  open_addr := fun _ => rfl
  open_timer := fun _ => rfl
  addr_cfg := by
    intro a h
    obtain rfl : 3 = a := Option.some.inj h
    rfl
  info_range := by
    intro r h
    obtain rfl : infoRecord = r := Option.some.inj h
    decide

/-- EventsNeverFault, StepKeepsSessionInvariant, StepKeepsPortsInvariant and NoStepWritesTableConfigurationOrMarks: that
state also meets the ports invariant, and its step answers a next state that has sent. -/
theorem witness_StepInvariants :
    let s : State := { open3 with inbox := [⟨⟨.event, [0x02]⟩, ⟨true, true⟩⟩], info := some infoRecord }
    SessionInv s ∧ PortsInv s ∧ isEvent .tick = true ∧ ∃ t, step s = .next t ∧ t.trace.length = 1 :=
  ⟨witness_SessionInv, ⟨(by intro e he; cases he), (by intro e he; cases he)⟩, rfl, _, rfl, rfl⟩

/-- FirstTickReadsInfoLaterTicksReadLevel and EveryFrameCarriesLatchedAddress: TICKs and a USER event after the CONNECT,
with the link open at the end, and with a write that fails. -/
theorem witness_Runs :
    let rows (ok : Bool) : List (Instr × Draws) :=
      [(.tick, ⟨true, true⟩), (.userPeriodic, ⟨true, true⟩), (.tick, ⟨true, ok⟩), (.tick, ⟨true, true⟩)]
    closed3.link = .closed ∧ legalAddress closed3.cfg.address = some 3 ∧ closed3.cfg.address = .integer 3 ∧
    (∀ ok, ∀ p ∈ rows ok, p.1 ≠ .connect) ∧
    (∃ t, runRows ((.connect, ⟨true, true⟩) :: rows true) closed3 = .next t ∧ t.trace.length = 5 ∧ t.link = .opened) ∧
    ∃ t, runRows ((.connect, ⟨true, true⟩) :: rows false) closed3 = .next t ∧ t.link = .closed := by
  refine ⟨rfl, rfl, rfl, by simp, ⟨_, rfl, rfl, rfl⟩, _, rfl, rfl⟩

/-- PollingStateMovesOnceAConnection: rows without a TICK, and rows with one from SteadyPolling. -/
theorem witness_PollingState :
    (∃ t, runRows [(.userPeriodic, ⟨true, true⟩)] open3 = .next t) ∧ open3.addr.isSome ∧
    steady3.phase = .steadyPolling ∧ ∃ t, runRows [(.tick, ⟨true, false⟩), (.close, ⟨true, true⟩)] steady3 = .next t :=
  ⟨⟨_, rfl⟩, rfl, rfl, _, rfl⟩

/-- ScriptLinesDeliverTheirEvents: a negative integer, two hex bytes, and a word that is no suffix of the line. -/
theorem witness_ScriptLines :
    decimalInt "-21" = some (-21) ∧ ["3E", "0a"].mapM hexByte = some [0x3E, 0x0A] ∧ "!openfail" ≠ "!txfail" := by
  decide +kernel

end Sys2Proof.Tests
end

/-! ### Reads outside the frame (00_scope R13, 20_memory R51) -/

namespace Sys2Proof.Machine

/-- A field lies outside its frame exactly when the frame ends before the field does. -/
theorem inFrame_eq_false_iff (f : List Byte) (off n : Nat) : inFrame f off n = false ↔ f.length < off + n := by
  simp [inFrame]

/-- The other side of `extract_next`: an extractor whose field does not lie in the frame never answers its value. -/
theorem extract_of_length_lt {f : List Byte} {off n : Nat} (h : f.length < off + n) (r : OpResult) (s : State) :
    extract f off n r s = .fault .offsetOutsideFrame := by
  have outside : inFrame f off n = false := (inFrame_eq_false_iff f off n).mpr h
  simp [extract, outside]

/-- Settles O17: every extractor's row runs `extract` on its own field. TEXT's operand condition `b ≤ n` is the field of
no bytes at its second offset. -/
theorem extractorOutsideFrameFaults : Obligations.ExtractorOutsideFrameFaults := by
  intro s f off a
  refine ⟨fun h => ⟨?u16le, ?i16le⟩, fun h => ?i8, fun h => ?u24le, fun h => ?text⟩
  case u16le => exact extract_of_length_lt h (.nat (u16le f off)) s
  case i16le => exact extract_of_length_lt h (.int (i16le f off)) s
  case i8 => exact extract_of_length_lt h (.int (i8 f off)) s
  case u24le => exact extract_of_length_lt h (.nat (u24le f off)) s
  case text => exact extract_of_length_lt (n := 0) h (.bytes (text f a off)) s

end Sys2Proof.Machine

/-! ### The fields after a connection, a failed open, a close and a decode (43_polling_fsm R181, R182, R196) -/

namespace Sys2Proof.Machine

section OpFields

variable (a : Byte) (src : Source) (o : DecodeOutcome) (s : State)

@[simp] theorem openConnection_link : (openConnection a s).link = .opened := rfl
@[simp] theorem openConnection_phase : (openConnection a s).phase = .awaitingFirstPoll := rfl
@[simp] theorem openConnection_addr : (openConnection a s).addr = some a := rfl
@[simp] theorem openConnection_info : (openConnection a s).info = none := rfl
@[simp] theorem openConnection_timer : (openConnection a s).timer = some (pollPeriod s.cfg) := rfl
@[simp] theorem openConnection_cfg : (openConnection a s).cfg = s.cfg := rfl
@[simp] theorem openConnection_crcTable : (openConnection a s).crcTable = s.crcTable := rfl
@[simp] theorem openConnection_faultMark : (openConnection a s).faultMark = s.faultMark := rfl
@[simp] theorem openConnection_refusedMark : (openConnection a s).refusedMark = s.refusedMark := rfl

@[simp] theorem failOpen_link : (failOpen s).link = s.link := rfl
@[simp] theorem failOpen_phase : (failOpen s).phase = s.phase := rfl
@[simp] theorem failOpen_addr : (failOpen s).addr = s.addr := rfl
@[simp] theorem failOpen_info : (failOpen s).info = s.info := rfl
@[simp] theorem failOpen_timer : (failOpen s).timer = s.timer := rfl
@[simp] theorem failOpen_cfg : (failOpen s).cfg = s.cfg := rfl
@[simp] theorem failOpen_crcTable : (failOpen s).crcTable = s.crcTable := rfl
@[simp] theorem failOpen_faultMark : (failOpen s).faultMark = s.faultMark := rfl
@[simp] theorem failOpen_refusedMark : (failOpen s).refusedMark = s.refusedMark := rfl

@[simp] theorem closeConnection_link : (closeConnection s).link = .closed := rfl
@[simp] theorem closeConnection_phase : (closeConnection s).phase = s.phase := rfl
@[simp] theorem closeConnection_addr : (closeConnection s).addr = s.addr := rfl
@[simp] theorem closeConnection_info : (closeConnection s).info = s.info := rfl
@[simp] theorem closeConnection_cfg : (closeConnection s).cfg = s.cfg := rfl
@[simp] theorem closeConnection_crcTable : (closeConnection s).crcTable = s.crcTable := rfl
@[simp] theorem closeConnection_faultMark : (closeConnection s).faultMark = s.faultMark := rfl
@[simp] theorem closeConnection_refusedMark : (closeConnection s).refusedMark = s.refusedMark := rfl

@[simp] theorem applyDecode_link : (applyDecode src o s).link = s.link := by simp [applyDecode_eq]
@[simp] theorem applyDecode_phase : (applyDecode src o s).phase = s.phase := by simp [applyDecode_eq]
@[simp] theorem applyDecode_addr : (applyDecode src o s).addr = s.addr := by simp [applyDecode_eq]
@[simp] theorem applyDecode_info : (applyDecode src o s).info = infoAfter o s.info := by simp [applyDecode_eq]
@[simp] theorem applyDecode_timer : (applyDecode src o s).timer = s.timer := by simp [applyDecode_eq]
@[simp] theorem applyDecode_cfg : (applyDecode src o s).cfg = s.cfg := by simp [applyDecode_eq]
@[simp] theorem applyDecode_crcTable : (applyDecode src o s).crcTable = s.crcTable := by simp [applyDecode_eq]
@[simp] theorem applyDecode_faultMark : (applyDecode src o s).faultMark = s.faultMark := by simp [applyDecode_eq]
@[simp] theorem applyDecode_refusedMark : (applyDecode src o s).refusedMark = s.refusedMark := by
  simp [applyDecode_eq]
@[simp] theorem applyDecode_trace : (applyDecode src o s).trace = s.trace ++ [⟨src, o.emissions, o.status⟩] := by
  simp [applyDecode_eq]

end OpFields

/-! ### Facts about the address, the polling state and the session record (10_state R24 to R27) -/

/-- CFG_ADDRESS is latched exactly when it is an integer in 0..255, as that byte. -/
theorem legalAddress_eq_some_iff {v : HostValue} {a : Byte} :
    legalAddress v = some a ↔ ∃ n : Int, 0 ≤ n ∧ n ≤ 255 ∧ v = .integer n ∧ a = BitVec.ofInt 8 n := by
  cases v with
  | notInteger => simp [legalAddress]
  | integer n => simp [legalAddress, and_assoc, eq_comm]

/-- A send moves the polling state only as the first TICK. -/
theorem phaseAfterSend_ne {i : Instr} {p : Phase} (h : phaseAfterSend i p ≠ p) :
    i = .tick ∧ p = .awaitingFirstPoll ∧ phaseAfterSend i p = .steadyPolling := by
  by_cases hi : i = .tick
  · cases p with
    | awaitingFirstPoll => exact ⟨hi, rfl, if_pos hi⟩
    | steadyPolling => exact absurd (if_pos hi) h
  · exact absurd (if_neg hi) h

/-- A record found after a decode is the decoded one, or was there before. -/
theorem infoAfter_eq_some {o : DecodeOutcome} {old : Option DeviceInfo} {r : DeviceInfo}
    (h : infoAfter o old = some r) : o = .deviceInfo r ∨ old = some r := by
  cases o with
  | deviceInfo r' => exact .inl (congrArg DecodeOutcome.deviceInfo (Option.some.inj h))
  | reading _ | unrecognized _ | dropTooShort _ | dropBadChecksum _ _ | dropShortForType _ _ => exact .inr h

/-- Only a device-info outcome changes the record, and its status carries the new one. -/
theorem infoAfter_ne {o : DecodeOutcome} {old : Option DeviceInfo} (h : infoAfter o old ≠ old) :
    ∃ r, infoAfter o old = some r ∧ o.status = .decInfo r := by
  cases o with
  | deviceInfo r => exact ⟨r, rfl, rfl⟩
  | reading _ | unrecognized _ | dropTooShort _ | dropBadChecksum _ _ | dropShortForType _ _ => exact absurd rfl h

/-- DECODE answers a device-info record only of a frame with room for its fields (41_frame_codec R141, R143). -/
theorem decodeFrame_eq_deviceInfo {T : CrcTable} {f : List Byte} {r : DeviceInfo}
    (h : decodeFrame T f = .deviceInfo r) : 44 ≤ f.length ∧ r = deviceInfoOf f := by
  simp only [decodeFrame] at h
  split_ifs at h
  cases h
  exact ⟨by omega, rfl⟩

theorem i8_range (f : List Byte) (off : Nat) : -128 ≤ i8 f off ∧ i8 f off ≤ 127 := by
  have h := sext_range 8 (memRead f off 1) (by decide) (memRead_lt f off 1)
  unfold i8
  omega

theorem i16le_range (f : List Byte) (off : Nat) : -32768 ≤ i16le f off ∧ i16le f off ≤ 32767 := by
  have h := sext_range 16 (memRead f off 2) (by decide) (memRead_lt f off 2)
  unfold i16le
  omega

theorem u24le_lt (f : List Byte) (off : Nat) : u24le f off < 2 ^ 24 :=
  memRead_lt f off 3

/-- The record of a frame with room for its fields has the widths of 10_state R34. -/
theorem deviceInfoOf_inRange {f : List Byte} (h : 44 ≤ f.length) : (deviceInfoOf f).inRange :=
  ⟨⟨text_length f 3 19 (by omega), text_length f 19 30 (by omega)⟩, i8_range f 30, i8_range f 31, i8_range f 32,
    i16le_range f 33, i16le_range f 35, u24le_lt f 37, u24le_lt f 40⟩

/-- Decoding keeps the stored record in range. -/
theorem infoAfter_decodeFrame_inRange {T : CrcTable} {f : List Byte} {old : Option DeviceInfo} {r : DeviceInfo}
    (hold : ∀ r, old = some r → r.inRange) (h : infoAfter (decodeFrame T f) old = some r) : r.inRange := by
  rcases infoAfter_eq_some h with hnew | hkept
  · obtain ⟨hlen, rfl⟩ := decodeFrame_eq_deviceInfo hnew
    exact deviceInfoOf_inRange hlen
  · exact hold r hkept

end Sys2Proof.Machine

/-! ### Reset (10_state R37, 70_reset_and_hazards R250) -/

namespace Sys2Proof.Machine

/-- The link is closed, no address is latched and no record is stored. -/
theorem sessionInv_reset : SessionInv State.reset where
  open_addr := nofun
  open_timer := nofun
  addr_cfg := nofun
  info_range := nofun

/-- Any state with an empty trace has written nothing to its ports. -/
theorem portsInv_of_trace_nil {s : State} (h : s.trace = []) : PortsInv s where
  tx_command := by simp [h]
  sink_range := by simp [h]

/-- Settles O6: the values are those `State.reset` is written with. -/
theorem powerOnResetState : Obligations.PowerOnResetState :=
  ⟨rfl, rfl, rfl, rfl, rfl, rfl⟩

/-- Settles O7. -/
theorem resetMeetsInvariants : Obligations.ResetMeetsInvariants :=
  ⟨sessionInv_reset, portsInv_of_trace_nil rfl⟩

end Sys2Proof.Machine

/-! ### The session invariant -/

namespace Sys2Proof.Machine

variable {s t : State} {i : Instr}

/-- A step that opens no link, latches no address and stores nothing out of range keeps the session invariant. The timer
has to be kept only while the link is open, since CLOSE disarms it (43_polling_fsm R196). -/
theorem SessionInv.keep (inv : SessionInv s) (hopen : t.link = .opened → s.link = .opened ∧ t.timer = s.timer)
    (haddr : t.addr = s.addr) (hcfg : t.cfg = s.cfg) (hinfo : ∀ r, t.info = some r → r.inRange) : SessionInv t where
  open_addr hl := haddr ▸ inv.open_addr (hopen hl).1
  open_timer hl := (hopen hl).2 ▸ inv.open_timer (hopen hl).1
  addr_cfg a ha := hcfg ▸ inv.addr_cfg a (haddr ▸ ha)
  info_range := hinfo

/-- The invariant of a new connection does not rest on the state before it: CONNECT writes every field it speaks of. -/
theorem sessionInv_openConnection {a : Byte} (ha : legalAddress s.cfg.address = some a) :
    SessionInv (openConnection a s) where
  open_addr := by simp
  open_timer := by simp
  addr_cfg := by simpa using ha
  info_range := by simp

/-- A decode stores only a record that is in range. -/
theorem SessionInv.applies_decode (inv : SessionInv s) (src : Source) (f : List Byte) :
    SessionInv (applyDecode src (decodeFrame s.crcTable f) s) := by
  refine inv.keep (by simp) (by simp) (by simp) (fun r hr => ?_)
  rw [applyDecode_info] at hr
  exact infoAfter_decodeFrame_inRange inv.info_range hr

/-- The answer of a free-standing operation is no field of the session. -/
theorem SessionInv.answers (inv : SessionInv s) (r : OpResult) : SessionInv (s.answer r) :=
  inv.keep (by simp) (by simp) (by simp) (by simpa using inv.info_range)

/-- No row breaks the session invariant. -/
theorem RowEffect.keeps_sessionInv (h : RowEffect s i t) (inv : SessionInv s) : SessionInv t := by
  cases h with
  | ignored | sentOk | sentFail | openFailed | closed =>
    exact inv.keep (by simp) (by simp) (by simp) (by simpa using inv.info_range)
  | received _ f => exact inv.applies_decode (rowSource i) f
  | decodedFree f => exact (inv.applies_decode (rowSource (.decode f)) f).answers _
  | answered _ r => exact inv.answers r
  | connected a _ ha => exact sessionInv_openConnection ha

/-- Taking a delivery writes no field of the session. -/
theorem SessionInv.takes_delivery (inv : SessionInv s) (rest : List Delivery) (d : Draws) :
    SessionInv ((s.setInbox rest).setDraws d) :=
  inv.keep (by simp) (by simp) (by simp) (by simpa using inv.info_range)

/-- Settles O53: a step is idle or one row after its delivery is taken, and both keep the invariant. -/
theorem stepKeepsSessionInvariant : Obligations.StepKeepsSessionInvariant := by
  intro s t inv h
  rcases step_next h with ⟨_, rfl⟩ | ⟨d, rest, i, _, _, hexec⟩
  · exact inv
  · exact (exec_next hexec).keeps_sessionInv (inv.takes_delivery rest d.draws)

end Sys2Proof.Machine

/-! ### Who writes each field of the session (10_state R23 to R26, R39, R40)

Each proof walks the effects a row can have; an effect that leaves the field alone contradicts the change, by the field's
lemma. -/

namespace Sys2Proof.Machine

variable {s t : State} {i : Instr}

/-- Settles O45: a connection resets the polling state, and of the sends only the first TICK moves it. -/
theorem onlyConnectAndTickWritePhase : Obligations.OnlyConnectAndTickWritePhase := by
  intro i s t h hne
  cases exec_next h with
  | connected a hl => exact .inl ⟨rfl, hl, openConnection_phase a s⟩
  | sentOk _ a f hl | sentFail _ a f hl =>
    obtain ⟨hi, hp, hafter⟩ := phaseAfterSend_ne hne
    exact .inr ⟨hi, hl, hp, hafter⟩
  | ignored | received | decodedFree | answered | openFailed | closed => simp at hne

/-- Settles O46: the byte a connection latches is the one `legalAddress` reads from CFG_ADDRESS. -/
theorem onlyConnectWritesAddress : Obligations.OnlyConnectWritesAddress := by
  intro i s t h hne
  cases exec_next h with
  | connected a _ ha =>
    obtain ⟨v, hlo, hhi, hcfg, rfl⟩ := legalAddress_eq_some_iff.mp ha
    exact ⟨rfl, v, hlo, hhi, hcfg, openConnection_addr _ s⟩
  | ignored | sentOk | sentFail | received | decodedFree | answered | openFailed | closed => simp at hne

/-- A closed link opens only by a CONNECT whose open succeeds. -/
theorem RowEffect.opens_link (h : RowEffect s i t) (hs : s.link = .closed) (ht : t.link = .opened) :
    i = .connect ∧ s.draws.openOk = true := by
  cases h with
  | connected _ _ _ hd => exact ⟨rfl, hd⟩
  | ignored | sentOk | sentFail | received | decodedFree | answered | openFailed | closed => simp [hs] at ht

/-- An open link closes only by CLOSE or by a failed write, whose status the row records. -/
theorem RowEffect.closes_link (h : RowEffect s i t) (hs : s.link = .opened) (ht : t.link = .closed) :
    i = .close ∨ (s.draws.txOk = false ∧ ∃ e f, t.trace = s.trace ++ [e] ∧ e.status = .faultTransportWrite f) := by
  cases h with
  | closed => exact .inl rfl
  | sentFail _ _ f _ _ _ hd => exact .inr ⟨hd, _, f, rfl, rfl⟩
  | ignored | sentOk | received | decodedFree | answered | connected | openFailed => simp [hs] at ht

/-- Settles O47. -/
theorem linkWriters : Obligations.LinkWriters :=
  fun _ _ _ h => ⟨(exec_next h).opens_link, (exec_next h).closes_link⟩

/-- A decode that changes the session record leaves the decoded record and ends with its status. -/
theorem applyDecode_info_ne {src : Source} {o : DecodeOutcome} (h : (applyDecode src o s).info ≠ s.info) :
    ∃ r e, (applyDecode src o s).info = some r ∧ (applyDecode src o s).trace = s.trace ++ [e] ∧
      e.status = .decInfo r := by
  rw [applyDecode_info] at h
  obtain ⟨r, hinfo, hstatus⟩ := infoAfter_ne h
  exact ⟨r, _, (applyDecode_info src o s).trans hinfo, applyDecode_trace src o s, hstatus⟩

/-- Settles O48: the record is written by an opened connection and by the two rows that decode a frame. -/
theorem sessionRecordWriters : Obligations.SessionRecordWriters := by
  intro i s t h hne
  cases exec_next h with
  | connected a => exact .inl ⟨rfl, openConnection_info a s⟩
  | received | decodedFree => exact .inr (applyDecode_info_ne hne)
  | ignored | sentOk | sentFail | answered | openFailed | closed => simp at hne

/-- No row writes the table, the configuration or a mark. -/
theorem RowEffect.keeps_table_cfg_marks (h : RowEffect s i t) :
    t.crcTable = s.crcTable ∧ t.cfg = s.cfg ∧ t.faultMark = s.faultMark ∧ t.refusedMark = s.refusedMark := by
  cases h with
  | ignored | sentOk | sentFail | received | decodedFree | answered | connected | openFailed | closed => simp

/-- Settles O50: neither taking a delivery nor its row writes any of them. -/
theorem noStepWritesTableConfigurationOrMarks : Obligations.NoStepWritesTableConfigurationOrMarks := by
  intro s t h
  rcases step_next h with ⟨_, rfl⟩ | ⟨d, rest, i, _, _, hexec⟩
  · exact ⟨rfl, rfl, rfl, rfl⟩
  · exact (exec_next hexec).keeps_table_cfg_marks

end Sys2Proof.Machine

/-! ### Sends with no latched address (log 12) -/

namespace Sys2Proof.Machine

variable {s : State}

/-- The other side of `sendCommand_some`: with no latched address there is no frame to send. -/
theorem sendCommand_none (src : Source) (op : Byte) (param : Option Byte) (after : State → State)
    (ha : s.addr = none) : sendCommand src op param after s = .fault .addressNotLatched := by
  simp [sendCommand, ha]

/-- On an open link a sending row is its command. -/
theorem sendIfOpen_opened (src : Source) (tag op : Byte) (param : Option Byte) (hl : s.link = .opened) :
    sendIfOpen src tag op param s = sendCommand src op param id s := by
  simp [sendIfOpen, hl]

/-- On an open link a USER write of an integer is its command with the clamped parameter. -/
theorem userWrite_opened_integer (tag op : Byte) (hi n : Int) (hl : s.link = .opened) :
    userWrite tag op hi (.integer n) s = sendCommand (.event tag) op (some (clampParam n hi)) id s := by
  simp [userWrite, hl]

/-- On an open link a TICK is a command in either polling state. -/
theorem execTick_opened (hl : s.link = .opened) :
    ∃ op after, execTick s = sendCommand (.event 0x02) op none after s := by
  cases hp : s.phase with
  | awaitingFirstPoll => exact ⟨0x10, fun t => t.setPhase .steadyPolling, by simp [execTick, hl, hp]⟩
  | steadyPolling => exact ⟨0x06, id, by simp [execTick, hl, hp]⟩

/-- Settles O37: on an open link each of these rows is a `sendCommand`, which has no address to write. -/
theorem sendWithoutLatchedAddressFaults : Obligations.SendWithoutLatchedAddressFaults := by
  intro s p v hl ha
  have send (src : Source) (tag op : Byte) (param : Option Byte) :
      sendIfOpen src tag op param s = .fault .addressNotLatched := by
    rw [sendIfOpen_opened src tag op param hl, sendCommand_none src op param id ha]
  have write (tag op : Byte) (hi : Int) : userWrite tag op hi (.integer v) s = .fault .addressNotLatched := by
    rw [userWrite_opened_integer tag op hi v hl, sendCommand_none _ op _ id ha]
  have tick : execTick s = .fault .addressNotLatched := by
    obtain ⟨op, after, htick⟩ := execTick_opened hl
    rw [htick, sendCommand_none _ op none after ha]
  simp only [List.forall_mem_cons, List.not_mem_nil, false_imp_iff, implies_true, and_true]
  exact ⟨send _ _ _ _, send _ _ _ _, send _ _ _ _, send _ _ _ _, send _ _ _ _, send _ _ _ _, tick, send _ _ _ _,
    write _ _ _, write _ _ _, write _ _ _⟩

end Sys2Proof.Machine

/-! ### Reading a frame back from its parts, and building it from them (30_encoding R73 to R75) -/

namespace Sys2Proof.Machine

section Parts

variable {pre mid : List Byte} {n : Nat}

/-- A byte behind a first part of length `n`. -/
theorem byteAt_append_add (h : pre.length = n) (post : List Byte) (k : Nat) :
    byteAt (pre ++ post) (n + k) = byteAt post k :=
  h ▸ byteAt_append_right pre post k

theorem byteAt_last (body : List Byte) (c : Byte) : byteAt (body ++ [c]) ((body ++ [c]).length - 1) = c := by
  simp [byteAt]

theorem wire16_append_add (h : pre.length = n) (post : List Byte) (k : Nat) :
    wire16 (pre ++ post) (n + k) = wire16 post k := by
  simp only [wire16, Nat.add_assoc, byteAt_append_add h]

theorem wire24_append_add (h : pre.length = n) (post : List Byte) (k : Nat) :
    wire24 (pre ++ post) (n + k) = wire24 post k := by
  simp only [wire24, Nat.add_assoc, byteAt_append_add h]

/-- The text between the end of a first part and the start of a last one. -/
theorem text_between (hpre : pre.length = n) {m : Nat} (hmid : n + mid.length = m) (post : List Byte) :
    text (pre ++ mid ++ post) n m = mid := by
  have htake : (pre ++ mid ++ post).take m = pre ++ mid := List.take_left' (by simp [hpre, hmid])
  rw [text, htake, List.drop_left' hpre]

/-- The same where the last part is one byte, as it is in every frame. -/
theorem text_before_last (hpre : pre.length = n) (c : Byte) :
    text (pre ++ mid ++ [c]) n ((pre ++ mid ++ [c]).length - 1) = mid :=
  text_between hpre (by simp [hpre]) [c]

end Parts

section Takes

variable {f : List Byte}

/-- Every response's layout begins with three bytes of its own: lead, address and type. -/
theorem take_three (h : 3 ≤ f.length) : [byteAt f 0, byteAt f 1, byteAt f 2] = f.take 3 := by
  rw [← take_append_byteAt f 2 (by omega), ← take_append_byteAt f 1 (by omega), ← take_append_byteAt f 0 (by omega)]
  rfl

theorem take_append_le16 (k : Nat) (h : k + 2 ≤ f.length) : f.take k ++ le16 (wire16 f k) = f.take (k + 2) := by
  rw [le16_wire16, ← take_append_byteAt f (k + 1) (by omega), ← take_append_byteAt f k (by omega),
    List.append_assoc]
  rfl

theorem take_append_le24 (k : Nat) (h : k + 3 ≤ f.length) : f.take k ++ le24 (wire24 f k) = f.take (k + 3) := by
  rw [le24_wire24, ← take_append_byteAt f (k + 2) (by omega), ← take_append_byteAt f (k + 1) (by omega),
    ← take_append_byteAt f k (by omega), List.append_assoc, List.append_assoc]
  rfl

/-- The bytes before an offset, the ignored bytes of a longer frame and its last byte are the frame. -/
theorem take_append_rest (k : Nat) (h : k < f.length) :
    f.take k ++ text f k (f.length - 1) ++ [byteAt f (f.length - 1)] = f := by
  rw [take_append_text f k (f.length - 1) (by omega), take_append_byteAt f (f.length - 1) (by omega),
    Nat.sub_add_cancel (by omega), List.take_length]

end Takes

end Sys2Proof.Machine

namespace Sys2Proof

open Machine

/-! Both ways between each response's fields and its frame: `…Of_bytes` reads back what was put together, and
`bytes_…Of` puts together what was read. -/

theorem readingFrameBytes_length (f : ReadingFrame) : (readingFrameBytes f).length = 9 + f.extra.length := by
  simp only [readingFrameBytes, le16, List.length_append, List.length_cons, List.length_nil]
  omega

theorem readingFrameOf_bytes (f : ReadingFrame) : readingFrameOf (readingFrameBytes f) = f := by
  obtain ⟨lead, address, temperature, raw, freq, extra, checksum⟩ := f
  simp only [readingFrameOf, ReadingFrame.mk.injEq]
  refine ⟨rfl, rfl, rfl, join_le16 raw, join_le16 freq, ?extra, ?checksum⟩
  case extra => exact text_before_last (n := 8) rfl checksum
  case checksum => exact byteAt_last _ checksum

theorem bytes_readingFrameOf {f : List Byte} (hlen : 9 ≤ f.length) (htype : byteAt f 2 = 0x06) :
    readingFrameBytes (readingFrameOf f) = f := by
  have htake : [byteAt f 0, byteAt f 1, 0x06, byteAt f 3] = f.take 4 := by
    rw [← htype, ← take_append_byteAt f 3 (by omega), ← take_three (by omega)]
    rfl
  simp only [readingFrameBytes, readingFrameOf]
  rw [htake, take_append_le16 4 (by omega), take_append_le16 6 (by omega), take_append_rest 8 (by omega)]

theorem infoFrameBytes_length {f : InfoFrame} (hmodel : f.model.length = 16) (hfw : f.firmwareVersion.length = 11) :
    (infoFrameBytes f).length = 44 + f.extra.length := by
  simp only [infoFrameBytes, le16, le24, List.length_append, List.length_cons, List.length_nil, hmodel, hfw]
  omega

/-- The last part of an RSP44 frame, from offset 30 on. -/
def infoNumberBytes (f : InfoFrame) : List Byte :=
  [f.mode, f.interval, f.filterDepth] ++ le16 f.calibrationMin ++ le16 f.calibrationMax ++ le24 f.counter1
    ++ le24 f.counter2 ++ f.extra ++ [f.checksum]

theorem infoFrameBytes_eq (f : InfoFrame) :
    infoFrameBytes f = [f.lead, f.address, 0x10] ++ f.model ++ f.firmwareVersion ++ infoNumberBytes f := by
  simp only [infoFrameBytes, infoNumberBytes, List.append_assoc]

theorem infoFrameOf_bytes {f : InfoFrame} (hmodel : f.model.length = 16) (hfw : f.firmwareVersion.length = 11) :
    infoFrameOf (infoFrameBytes f) = f := by
  obtain ⟨lead, address, model, fw, mode, interval, depth, calMin, calMax, c1, c2, extra, checksum⟩ := f
  simp only at hmodel hfw
  have htexts : ([lead, address, 0x10] ++ model ++ fw).length = 30 := by simp [hmodel, hfw]
  simp only [infoFrameOf, InfoFrame.mk.injEq]
  refine ⟨rfl, rfl, ?model, ?firmware, ?mode, ?interval, ?depth, ?calMin, ?calMax, ?c1, ?c2, ?extra, ?checksum⟩
  case extra => exact text_before_last (n := 43) (by simp [le16, le24, hmodel, hfw]) checksum
  case checksum => exact byteAt_last _ checksum
  all_goals rw [infoFrameBytes_eq]
  case model => rw [List.append_assoc]; exact text_between (n := 3) rfl (by simp [hmodel]) _
  case firmware => exact text_between (n := 19) (by simp [hmodel]) (by simp [hfw]) _
  case mode => exact byteAt_append_add htexts _ 0
  case interval => exact byteAt_append_add htexts _ 1
  case depth => exact byteAt_append_add htexts _ 2
  case calMin => exact (wire16_append_add htexts _ 3).trans (join_le16 calMin)
  case calMax => exact (wire16_append_add htexts _ 5).trans (join_le16 calMax)
  case c1 => exact (wire24_append_add htexts _ 7).trans (join_le24 c1)
  case c2 => exact (wire24_append_add htexts _ 10).trans (join_le24 c2)

theorem bytes_infoFrameOf {f : List Byte} (hlen : 44 ≤ f.length) (htype : byteAt f 2 = 0x10) :
    infoFrameBytes (infoFrameOf f) = f := by
  have htake : [byteAt f 0, byteAt f 1, 0x10] = f.take 3 := htype ▸ take_three (by omega)
  have hthree : f.take 30 ++ [byteAt f 30, byteAt f 31, byteAt f 32] = f.take 33 := by
    rw [← take_append_byteAt f 32 (by omega), ← take_append_byteAt f 31 (by omega),
      ← take_append_byteAt f 30 (by omega), List.append_assoc, List.append_assoc]
    rfl
  simp only [infoFrameBytes, infoFrameOf]
  rw [htake, take_append_text f 3 19 (by omega), take_append_text f 19 30 (by omega), hthree,
    take_append_le16 33 (by omega), take_append_le16 35 (by omega), take_append_le24 37 (by omega),
    take_append_le24 40 (by omega), take_append_rest 43 (by omega)]

theorem otherFrameBytes_length (f : OtherFrame) : (otherFrameBytes f).length = 4 + f.payload.length := by
  simp only [otherFrameBytes, List.length_append, List.length_cons, List.length_nil]
  omega

theorem otherFrameOf_bytes (f : OtherFrame) : otherFrameOf (otherFrameBytes f) = f := by
  obtain ⟨lead, address, kind, payload, checksum⟩ := f
  simp only [otherFrameOf, OtherFrame.mk.injEq]
  refine ⟨rfl, rfl, rfl, ?payload, ?checksum⟩
  case payload => exact text_before_last (n := 3) rfl checksum
  case checksum => exact byteAt_last _ checksum

theorem bytes_otherFrameOf {f : List Byte} (hlen : 4 ≤ f.length) : otherFrameBytes (otherFrameOf f) = f := by
  simp only [otherFrameBytes, otherFrameOf]
  rw [take_three (by omega), take_append_rest 3 (by omega)]

/-! ### The decoder on frames (30_encoding R78, R80) -/

theorem decodeInbound_reading {f : List Byte} (hlen : 9 ≤ f.length) (htype : byteAt f 2 = 0x06) :
    decodeInbound f = .rspReading (readingFrameOf f) := by
  rw [decodeInbound, if_neg (by omega), if_pos htype, if_neg (by omega)]

theorem decodeInbound_info {f : List Byte} (hlen : 44 ≤ f.length) (htype : byteAt f 2 = 0x10) :
    decodeInbound f = .rspInfo (infoFrameOf f) := by
  rw [decodeInbound, if_neg (by omega), if_neg (by simp [htype]), if_pos htype, if_neg (by omega)]

theorem decodeInbound_other {f : List Byte} (hlen : 4 ≤ f.length) (h06 : byteAt f 2 ≠ 0x06)
    (h10 : byteAt f 2 ≠ 0x10) : decodeInbound f = .rspOther (otherFrameOf f) := by
  rw [decodeInbound, if_neg (by omega), if_neg h06, if_neg h10]

/-- The row of an inbound frame: RX of a frame too short for its type's format, else the response of its type. -/
theorem decodeInbound_cases (f : List Byte) :
    decodeInbound f = .rx f ∨
    (9 ≤ f.length ∧ byteAt f 2 = 0x06 ∧ decodeInbound f = .rspReading (readingFrameOf f)) ∨
    (44 ≤ f.length ∧ byteAt f 2 = 0x10 ∧ decodeInbound f = .rspInfo (infoFrameOf f)) ∨
    (4 ≤ f.length ∧ decodeInbound f = .rspOther (otherFrameOf f)) := by
  unfold decodeInbound
  split_ifs with hshort h06 hreading h10 hinfo
  · exact .inl rfl
  · exact .inl rfl
  · exact .inr (.inl ⟨by omega, h06, rfl⟩)
  · exact .inl rfl
  · exact .inr (.inr (.inl ⟨by omega, h10, rfl⟩))
  · exact .inr (.inr (.inr ⟨by omega, rfl⟩))

/-! The frame of each response that fits its layout decodes to that response. -/

theorem decodeInbound_readingFrameBytes (f : ReadingFrame) : decodeInbound (readingFrameBytes f) = .rspReading f := by
  have hlen : 9 ≤ (readingFrameBytes f).length := by rw [readingFrameBytes_length]; omega
  rw [decodeInbound_reading hlen rfl, readingFrameOf_bytes]

theorem decodeInbound_infoFrameBytes {f : InfoFrame} (h : (Instr.rspInfo f).fitsLayout = true) :
    decodeInbound (infoFrameBytes f) = .rspInfo f := by
  obtain ⟨hmodel, hfw⟩ : f.model.length = 16 ∧ f.firmwareVersion.length = 11 := by
    simpa [Instr.fitsLayout] using h
  have hlen : 44 ≤ (infoFrameBytes f).length := by rw [infoFrameBytes_length hmodel hfw]; omega
  rw [decodeInbound_info hlen rfl, infoFrameOf_bytes hmodel hfw]

theorem decodeInbound_otherFrameBytes {f : OtherFrame} (h : (Instr.rspOther f).fitsLayout = true) :
    decodeInbound (otherFrameBytes f) = .rspOther f := by
  obtain ⟨h06, h10⟩ : f.kind ≠ 0x06 ∧ f.kind ≠ 0x10 := by simpa [Instr.fitsLayout] using h
  have hlen : 4 ≤ (otherFrameBytes f).length := by rw [otherFrameBytes_length]; omega
  rw [decodeInbound_other hlen h06 h10, otherFrameOf_bytes]

/-- Settles O1: a command or a tag with fixed bytes decodes by evaluation, a response by its frame's lemma, and a row
with operands because each reader reads back what its writer wrote. -/
theorem decodeEncodeRoundTrip : Obligations.DecodeEncodeRoundTrip := by
  intro T addr i hfits
  cases i with
  | readLevel | readInfo | reqPeriodic | setMode | setInterval | setFilter => rfl
  | rspReading f => exact congrArg Except.ok (decodeInbound_readingFrameBytes f)
  | rspInfo f => exact congrArg Except.ok (decodeInbound_infoFrameBytes hfits)
  | rspOther f => exact congrArg Except.ok (decodeInbound_otherFrameBytes hfits)
  | connect | tick | userPeriodic | rx | close | crcStep | crc8 | decode | tempSm => rfl
  | fuel raw => exact congrArg (fun v => Except.ok (Instr.fuel v)) (join_le16 raw)
  | userMode | userInterval | userFilter | encode | scale | round2c | clamp | u16le | i16le | i8 | u24le | text =>
    simp [Sys2Proof.encode, Sys2Proof.decode, decodeEvent, bind, Except.bind]

end Sys2Proof

/-! ### Frames arriving on the RX port -/

namespace Sys2Proof.Machine

/-- Settles O2: the fields of each response, put together again, are the frame it was read from. -/
theorem inboundRowsAreRxOfTheirFrame : Obligations.InboundRowsAreRxOfTheirFrame := by
  intro f s
  refine ⟨decodeInbound f, rfl, ?_⟩
  rcases decodeInbound_cases f with hrx | ⟨hlen, htype, hread⟩ | ⟨hlen, htype, hinfo⟩ | ⟨hlen, hother⟩
  · rw [hrx]
  · rw [hread]
    exact congrArg (receive · s) (bytes_readingFrameOf hlen htype)
  · rw [hinfo]
    exact congrArg (receive · s) (bytes_infoFrameOf hlen htype)
  · rw [hother]
    exact congrArg (receive · s) (bytes_otherFrameOf hlen)

/-- Settles O3: each word is closed, and the decoder evaluates. -/
theorem writtenOutWordsDecode : Obligations.WrittenOutWordsDecode :=
  ⟨rfl, rfl, rfl, rfl, rfl⟩

end Sys2Proof.Machine

/-! ### Writes on an open link (30_encoding R71, R72, R77, R86) -/

namespace Sys2Proof.Machine

variable {s t : State} {i : Instr}

/-- A row that is a sent command completes with its frame written, whatever the draw; the rest of its event, `after`,
must not depend on the link or the log. -/
theorem completesSending_of_sendCommand {src : Source} {op : Byte} {param : Option Byte} {after : State → State}
    {a : Byte} (hexec : exec i s = sendCommand src op param after s) (ha : s.addr = some a)
    (hafter : agreesButLog (after ((s.setLink .closed).addLogs [.error])) ((after s).setLink .closed)) :
    completesSending i s src (encodeFrame s.crcTable a op param) (after s) := by
  rw [sendCommand_some src op param after ha] at hexec
  refine ⟨fun hok => ⟨_, hexec, ?_⟩, fun hfail => ⟨_, hexec, ?_⟩⟩
  · rw [send_ok _ hok, hok]
    rfl
  · rw [send_fail _ hfail, hfail, agreesButLog, hafter]
    rfl

/-- The same for a command row, which does nothing but send. -/
theorem completesSending_of_sendIfOpen {src : Source} {tag op : Byte} {param : Option Byte} {a : Byte}
    (hexec : exec i s = sendIfOpen src tag op param s) (hl : s.link = .opened) (ha : s.addr = some a) :
    completesSending i s src (encodeFrame s.crcTable a op param) s :=
  completesSending_of_sendCommand (after := id) (hexec.trans (sendIfOpen_opened src tag op param hl)) ha rfl

/-- A byte clamped from above: the byte itself, or the end of its range. -/
theorem clampParam_byte (p hi : Byte) : clampParam (p.toNat : Int) (hi.toNat : Int) = if p ≤ hi then p else hi := by
  have hclamp : clamp (p.toNat : Int) 0 (hi.toNat : Int) = ((if p ≤ hi then p else hi).toNat : Int) := by
    simp only [clamp, BitVec.le_def]
    split_ifs <;> omega
  rw [clampParam, hclamp, BitVec.ofInt_natCast, BitVec.ofNat_toNat, BitVec.setWidth_eq]

/-- Settles O36: the frame is ENCODE's, and the packet is format CMD4 or CMD5, which ENCODE writes. -/
theorem commandRowsSendTheirPacket : Obligations.CommandRowsSendTheirPacket := by
  intro s a hl ha
  have cmd4 {i : Instr} {src : Source} {tag op : Byte} (hexec : exec i s = sendIfOpen src tag op none s) :
      completesSending i s src (cmd4Bytes s.crcTable a op) s :=
    encodeFrame_none s.crcTable a op ▸ completesSending_of_sendIfOpen hexec hl ha
  have cmd5 {i : Instr} {src : Source} {tag op p hi : Byte}
      (hexec : exec i s = sendIfOpen src tag op (some (clampParam (p.toNat : Int) (hi.toNat : Int))) s) :
      completesSending i s src (cmd5Bytes s.crcTable a op (if p ≤ hi then p else hi)) s :=
    clampParam_byte p hi ▸ encodeFrame_some s.crcTable a op _ ▸ completesSending_of_sendIfOpen hexec hl ha
  refine ⟨cmd4 rfl, cmd4 rfl, cmd4 rfl, fun p => cmd5 (hi := 2) rfl, fun p => ?interval, fun p => cmd5 (hi := 20) rfl⟩
  case interval =>
    have hp : p ≤ 255 := BitVec.le_def.mpr (Nat.le_of_lt_succ p.isLt)
    have h := cmd5 (i := .setInterval p) (p := p) (hi := 255) rfl
    rwa [if_pos hp] at h

/-! ### The ports invariant -/

/-- A step that leaves the output trace alone keeps the ports invariant. -/
theorem PortsInv.keep (inv : PortsInv s) (hcfg : t.cfg = s.cfg) (hT : t.crcTable = s.crcTable)
    (htrace : t.trace = s.trace) : PortsInv t where
  tx_command := by simpa [hcfg, hT, htrace] using inv.tx_command
  sink_range := by simpa [htrace] using inv.sink_range

/-- So does one that adds an entry whose outputs the rules allow. -/
theorem PortsInv.extend {e : TraceEntry} (inv : PortsInv s) (hcfg : t.cfg = s.cfg) (hT : t.crcTable = s.crcTable)
    (htrace : t.trace = s.trace ++ [e])
    (htx : ∀ f ok, Emission.tx f ok ∈ e.outputs →
      ∃ a, legalAddress s.cfg.address = some a ∧ isCommandFrame s.crcTable a f)
    (hsink : ∀ r, Emission.sink r ∈ e.outputs → r.inRange) : PortsInv t where
  tx_command := by
    rw [htrace, hcfg, hT, List.forall_mem_append, List.forall_mem_singleton]
    exact ⟨inv.tx_command, htx⟩
  sink_range := by
    rw [htrace, List.forall_mem_append, List.forall_mem_singleton]
    exact ⟨inv.sink_range, hsink⟩

/-- FUEL is at most 1800 hundredths: its input is clamped to 4095, which is scaled to 18 (42_scaling R165). -/
theorem fuel_le (raw : Nat) : fuel raw ≤ 1800 := by
  have hclamp : clamp (raw : Rat) 0 4095 ≤ 4095 := max_le (min_le_right _ _) (by norm_num)
  have hfloor : round2c (scaleMap raw 0 4095 0 18) < 1801 := by
    rw [round2c, Int.floor_lt, scaleMap]
    push_cast
    linarith
  rw [fuel]
  omega

theorem u16le_lt (f : List Byte) (off : Nat) : u16le f off < 2 ^ 16 :=
  memRead_lt f off 2

/-- Every field of a decoded reading is in the range of 10_state R33. -/
theorem readingOf_inRange (f : List Byte) : (readingOf f).inRange :=
  ⟨tempSm_range (byteAt f 3), u16le_lt f 4, fuel_le (u16le f 4), u16le_lt f 6⟩

theorem decodeFrame_eq_reading {T : CrcTable} {f : List Byte} {r : Reading} (h : decodeFrame T f = .reading r) :
    r = readingOf f := by
  simp only [decodeFrame] at h
  split_ifs at h
  exact (DecodeOutcome.reading.inj h).symm

/-- Every record DECODE emits is in range (10_state R33, R34). -/
theorem decodeFrame_emissions_inRange {T : CrcTable} {f : List Byte} {r : SinkRecord}
    (h : Emission.sink r ∈ (decodeFrame T f).emissions) : r.inRange := by
  cases ho : decodeFrame T f with
  | reading q =>
    obtain rfl : r = .reading q := by simpa [ho, DecodeOutcome.emissions] using h
    exact decodeFrame_eq_reading ho ▸ readingOf_inRange f
  | deviceInfo q =>
    obtain rfl : r = .deviceInfo q := by simpa [ho, DecodeOutcome.emissions] using h
    obtain ⟨hlen, rfl⟩ := decodeFrame_eq_deviceInfo ho
    exact deviceInfoOf_inRange hlen
  | unrecognized _ | dropTooShort _ | dropBadChecksum _ _ | dropShortForType _ _ =>
    simp [ho, DecodeOutcome.emissions] at h

/-- DECODE writes no frame. -/
theorem emissions_not_tx (o : DecodeOutcome) (f : List Byte) (ok : Bool) : Emission.tx f ok ∉ o.emissions := by
  cases o <;> simp [DecodeOutcome.emissions]

/-- A decode writes no frame and hands over only a record that is in range. -/
theorem PortsInv.applies_decode (inv : PortsInv s) (src : Source) (f : List Byte) :
    PortsInv (applyDecode src (decodeFrame s.crcTable f) s) :=
  inv.extend (applyDecode_cfg _ _ s) (applyDecode_crcTable _ _ s) (applyDecode_trace _ _ s)
    (fun g ok hg => absurd hg (emissions_not_tx _ g ok)) (fun _ hr => decodeFrame_emissions_inRange hr)

/-- No row breaks the ports invariant. The session invariant makes the latched address CFG_ADDRESS. -/
theorem RowEffect.keeps_portsInv (h : RowEffect s i t) (session : SessionInv s) (inv : PortsInv s) : PortsInv t := by
  cases h with
  | ignored | connected | openFailed | closed => exact inv.extend rfl rfl rfl nofun nofun
  | sentOk _ a f _ ha hf | sentFail _ a f _ ha hf =>
    refine inv.extend rfl rfl rfl (fun g ok hg => ?_) (by simp)
    obtain ⟨rfl, -⟩ := Emission.tx.inj (List.mem_singleton.mp hg)
    exact ⟨a, session.addr_cfg a ha, hf⟩
  | received _ f => exact inv.applies_decode (rowSource i) f
  | decodedFree f => exact (inv.applies_decode (rowSource (.decode f)) f).keep rfl rfl rfl
  | answered => exact inv.keep rfl rfl rfl

/-- Settles O54: a step is idle or one row after its delivery is taken, and both keep the invariant. -/
theorem stepKeepsPortsInvariant : Obligations.StepKeepsPortsInvariant := by
  intro s t session inv h
  rcases step_next h with ⟨_, rfl⟩ | ⟨d, rest, i, _, _, hexec⟩
  · exact inv
  · exact (exec_next hexec).keeps_portsInv (session.takes_delivery rest d.draws) (inv.keep rfl rfl rfl)

end Sys2Proof.Machine

/-! ### The lines of a script (30_encoding R84, R85) -/

namespace Sys2Proof.Machine

/-- Settles O58: both pseudo-events put the same deliveries in the inbox as their expansions. -/
theorem pseudoEventsAreTheirExpansions : Obligations.PseudoEventsAreTheirExpansions := by
  refine fun s => ⟨fun body => ⟨rfl, ?valid⟩, fun n => ?poll⟩
  case valid => rw [frameOk_append_byte, beq_self_eq_true]
  case poll =>
    have hexpand : (List.replicate n (ScriptLine.tick true)).flatMap (ScriptLine.expand s.crcTable) =
        List.replicate n (eventDelivery s.crcTable .tick ⟨true, true⟩) := by
      rw [List.flatMap_replicate]
      exact List.flatten_replicate_singleton
    rw [loadScript, loadScript, hexpand, List.flatMap_singleton, ScriptLine.expand]

theorem drawSuffix_nil (suffix : String) : drawSuffix suffix [] = some true := rfl

theorem drawSuffix_self (suffix : String) : drawSuffix suffix [suffix] = some false := if_pos rfl

theorem drawSuffix_other {suffix w : String} (h : w ≠ suffix) : drawSuffix suffix [w] = none := if_neg h

/-! What each kind of line reads as, its draw left to `drawSuffix`. -/

section ParseWords

variable (rest : List String)

theorem parseWords_connect :
    parseWords ("connect" :: rest) = (drawSuffix "!openfail" rest).map .connect := rfl

theorem parseWords_tick : parseWords ("tick" :: rest) = (drawSuffix "!txfail" rest).map .tick := rfl

theorem parseWords_userPeriodic :
    parseWords ("user" :: "periodic" :: rest) = (drawSuffix "!txfail" rest).map .userPeriodic := rfl

theorem parseWords_rx : parseWords ("rx" :: rest) = (rest.mapM hexByte).map .rx := rfl

theorem parseWords_close_word (w : String) : parseWords ["close", w] = none := rfl

variable {num : String} {v : Int}

/-- A line with an operand that is read as `v` is, after it, a line with a draw alone. -/
theorem operand_then_draw (hv : decimalInt num = some v) (line : Int → Bool → ScriptLine) :
    ((decimalInt num).bind fun n => (drawSuffix "!txfail" rest).bind fun ok => some (line n ok)) =
      (drawSuffix "!txfail" rest).map (line v) := by
  rw [hv, Option.bind_some, Option.map_eq_bind]
  rfl

theorem parseWords_userMode (hv : decimalInt num = some v) :
    parseWords ("user" :: "mode" :: num :: rest) = (drawSuffix "!txfail" rest).map (.userMode v) :=
  operand_then_draw rest hv .userMode

theorem parseWords_userInterval (hv : decimalInt num = some v) :
    parseWords ("user" :: "interval" :: num :: rest) = (drawSuffix "!txfail" rest).map (.userInterval v) :=
  operand_then_draw rest hv .userInterval

theorem parseWords_userFilter (hv : decimalInt num = some v) :
    parseWords ("user" :: "filter" :: num :: rest) = (drawSuffix "!txfail" rest).map (.userFilter v) :=
  operand_then_draw rest hv .userFilter

end ParseWords

/-- The words are a line that is delivered as one packet, which decodes to the row, with the draws. -/
def ReadsAs (T : CrcTable) (words : List String) (i : Instr) (d : Draws) : Prop :=
  ∃ l p, parseWords words = some l ∧ l.expand T = [⟨p, d⟩] ∧ decode p = .ok i

/-- The words are a line that sends: they end with no suffix or with `!txfail`, and with no other word. -/
def ReadsAsSend (T : CrcTable) (words : List String) (i : Instr) : Prop :=
  ReadsAs T words i ⟨true, true⟩ ∧ ReadsAs T (words ++ ["!txfail"]) i ⟨true, false⟩ ∧
    ∀ w, w ≠ "!txfail" → parseWords (words ++ [w]) = none

section ReadsAs

variable {T : CrcTable} {words : List String} {i : Instr} {d : Draws}

/-- An event's delivery is read back as the event, by the round trip of its packet. -/
theorem readsAs_of_expand {l : ScriptLine} (hparse : parseWords words = some l)
    (hexpand : l.expand T = [eventDelivery T i d]) (hfits : i.fitsLayout = true) : ReadsAs T words i d :=
  ⟨l, encode T 0 i, hparse, hexpand, decodeEncodeRoundTrip T 0 i hfits⟩

/-- A line whose draw is left to `drawSuffix` and is `txOk` is a line that sends. -/
theorem readsAsSend_of_draw {line : Bool → ScriptLine}
    (hparse : ∀ rest, parseWords (words ++ rest) = (drawSuffix "!txfail" rest).map line)
    (hexpand : ∀ ok, (line ok).expand T = [eventDelivery T i ⟨true, ok⟩]) (hfits : i.fitsLayout = true) :
    ReadsAsSend T words i := by
  refine ⟨readsAs_of_expand ?noSuffix (hexpand true) hfits, readsAs_of_expand ?suffix (hexpand false) hfits,
    fun w hw => ?otherWord⟩
  case noSuffix =>
    have h := hparse []
    rwa [List.append_nil, drawSuffix_nil] at h
  case suffix => rw [hparse, drawSuffix_self, Option.map_some]
  case otherWord => rw [hparse, drawSuffix_other hw, Option.map_none]

end ReadsAs

/-- Settles O59: `ReadsAs` and `ReadsAsSend` name its two local predicates. -/
theorem scriptLinesDeliverTheirEvents : Obligations.ScriptLinesDeliverTheirEvents := by
  intro T v num f hex hv hf
  have connectOther (w : String) (hw : w ≠ "!openfail") : parseWords ["connect", w] = none := by
    rw [parseWords_connect, drawSuffix_other hw, Option.map_none]
  have rxParse : parseWords ("rx" :: hex) = some (.rx f) := by
    rw [parseWords_rx, hf, Option.map_some]
  have connectLine : ReadsAs T ["connect"] .connect ⟨true, true⟩ := readsAs_of_expand rfl rfl rfl
  have connectFails : ReadsAs T ["connect", "!openfail"] .connect ⟨false, true⟩ := readsAs_of_expand rfl rfl rfl
  have rxLine : ReadsAs T ("rx" :: hex) (.rx f) ⟨true, true⟩ := readsAs_of_expand rxParse rfl rfl
  have closeLine : ReadsAs T ["close"] .close ⟨true, true⟩ := readsAs_of_expand rfl rfl rfl
  have tick : ReadsAsSend T ["tick"] .tick := readsAsSend_of_draw parseWords_tick (fun _ => rfl) rfl
  have periodic : ReadsAsSend T ["user", "periodic"] .userPeriodic :=
    readsAsSend_of_draw parseWords_userPeriodic (fun _ => rfl) rfl
  have mode : ReadsAsSend T ["user", "mode", num] (.userMode (.integer v)) :=
    readsAsSend_of_draw (parseWords_userMode · hv) (fun _ => rfl) rfl
  have interval : ReadsAsSend T ["user", "interval", num] (.userInterval (.integer v)) :=
    readsAsSend_of_draw (parseWords_userInterval · hv) (fun _ => rfl) rfl
  have filter : ReadsAsSend T ["user", "filter", num] (.userFilter (.integer v)) :=
    readsAsSend_of_draw (parseWords_userFilter · hv) (fun _ => rfl) rfl
  exact ⟨connectLine, connectFails, connectOther, tick, periodic, mode, interval, filter, rxLine, closeLine,
    parseWords_close_word⟩

end Sys2Proof.Machine

/-! ### The checksum unit (40_checksum) -/

namespace Sys2Proof.Machine

@[simp] theorem crcStep_zero (T : CrcTable) (b : Byte) : crcStep T 0 b = T.get b.toFin := by
  simp [crcStep]

/-- Settles O8: the row's answer is `crcStep`, whose two corner cases are rules of their own. -/
theorem crcStepAnswersTableEntry : Obligations.CrcStepAnswersTableEntry := by
  intro s c b
  have hexec (c b : Byte) : exec (.crcStep c b) s = .next (s.answer (.byte (crcStep s.crcTable c b))) := rfl
  refine ⟨hexec c b, ?equal, ?zero⟩
  case equal => rw [hexec, crcStep_self, State.answer]
  case zero => rw [hexec, crcStep_zero, State.answer]

/-- Settles O9: the answer is `crc8`. -/
theorem crc8AnswersByteByByte : Obligations.Crc8AnswersByteByByte := by
  refine fun s => ⟨crc8 s.crcTable, fun bs => rfl, crc8_nil s.crcTable, fun b => ?oneByte, fun xs b => ?oneMore⟩
  case oneByte => exact (crc8_append_byte s.crcTable [] b).trans (crcStep_zero s.crcTable b)
  case oneMore => rw [crc8_append_byte, crcStep]

theorem frameOk_appendCrc (T : CrcTable) (body : List Byte) : frameOk T (appendCrc T body) = true := by
  rw [appendCrc, frameOk_append_byte, beq_self_eq_true]

theorem frameOk_append_byte_of_ne {T : CrcTable} {body : List Byte} {c : Byte} (hc : c ≠ crc8 T body) :
    frameOk T (body ++ [c]) = false := by
  rw [frameOk_append_byte, beq_false_of_ne hc]

/-- Settles O10: the last step over a valid frame is CRC_STEP of the checksum with itself. -/
theorem appendedChecksumIsValidWithConstantResidue : Obligations.AppendedChecksumIsValidWithConstantResidue := by
  refine fun T body => ⟨rfl, frameOk_appendCrc T body, ?residue⟩
  case residue => rw [appendCrc, crc8_append_byte, crcStep_self]

section Bijective

variable {T : CrcTable}

theorem crcStep_injective_left (h : Function.Injective fun i : Fin 256 => T.get i) (b : Byte) :
    Function.Injective fun c => crcStep T c b :=
  fun _ _ hc => (BitVec.xor_left_inj b).mp (BitVec.toFin_inj.mp (h hc))

theorem crcStep_injective_right (h : Function.Injective fun i : Fin 256 => T.get i) (c : Byte) :
    Function.Injective fun b => crcStep T c b :=
  fun _ _ hb => (BitVec.xor_right_inj c).mp (BitVec.toFin_inj.mp (h hb))

/-- A difference in the checksum so far is never lost again: every further step keeps it. -/
theorem foldl_crcStep_injective (h : Function.Injective fun i : Fin 256 => T.get i) (bs : List Byte) :
    Function.Injective fun c => bs.foldl (crcStep T) c := by
  induction bs with
  | nil => exact Function.injective_id
  | cons b bs ih => exact ih.comp (crcStep_injective_left h b)

/-- The checksums after the changed byte differ, and the bytes behind it keep them apart. -/
theorem crc8_change_byte (h : Function.Injective fun i : Fin 256 => T.get i) (pre post : List Byte) {x y : Byte}
    (hxy : x ≠ y) : crc8 T (pre ++ x :: post) ≠ crc8 T (pre ++ y :: post) := by
  rw [crc8_append, crc8_append, List.foldl_cons, List.foldl_cons]
  exact (foldl_crcStep_injective h post).ne ((crcStep_injective_right h (crc8 T pre)).ne hxy)

end Bijective

/-- Settles O11: of the bijection only its injectivity is needed. -/
theorem bijectiveTableDetectsOneByteChange : Obligations.BijectiveTableDetectsOneByteChange :=
  fun _ h => ⟨crcStep_injective_left h.injective, crcStep_injective_right h.injective,
    fun pre post _ _ hxy => crc8_change_byte h.injective pre post hxy⟩

/-! ### Frames that DECODE drops for their length or their checksum (41_frame_codec R136, R137) -/

theorem decodeFrame_of_length_lt (T : CrcTable) {f : List Byte} (h : f.length < 4) :
    decodeFrame T f = .dropTooShort f.length :=
  if_pos h

theorem decodeFrame_append_wrong_byte {T : CrcTable} {body : List Byte} {c : Byte} (hlen : 3 ≤ body.length)
    (hc : c ≠ crc8 T body) : decodeFrame T (body ++ [c]) = .dropBadChecksum (crc8 T body) c := by
  have hlong : ¬ (body ++ [c]).length < 4 := by
    rw [List.length_append, List.length_singleton]
    omega
  have hbody : (body ++ [c]).take ((body ++ [c]).length - 1) = body := by
    rw [← List.dropLast_eq_take, List.dropLast_concat]
  simp only [decodeFrame, if_neg hlong, frameOk_append_byte_of_ne hc, hbody, byteAt_last, Bool.not_false, if_true]

theorem receive_opened {s : State} (f : List Byte) (hl : s.link = .opened) :
    receive f s = .next (applyDecode (.event 0x07) (decodeFrame s.crcTable f) s) := by
  rw [receive, hl]

/-- A row that is an arrival completes, on an open link, with what its frame decodes to: the session record it leaves,
its emissions and its status (43_polling_fsm R194). -/
theorem completesIn_of_receive {i : Instr} {s : State} {f : List Byte} (hexec : exec i s = receive f s)
    (hl : s.link = .opened) :
    completesIn i s
      ((s.setInfo (infoAfter (decodeFrame s.crcTable f) s.info)).record (.event 0x07)
        (decodeFrame s.crcTable f).emissions (decodeFrame s.crcTable f).status) := by
  refine ⟨_, hexec.trans (receive_opened f hl), ?_⟩
  rw [applyDecode_eq]
  rfl

/-- Settles O42: the altered frame is dropped by its length, or else by its checksum. -/
theorem alteredLastByteIsDropped : Obligations.AlteredLastByteIsDropped := by
  intro s body c hl hc
  refine ⟨frameOk_appendCrc s.crcTable body, frameOk_append_byte_of_ne hc, ?dropped⟩
  have hrx : completesIn (.rx (body ++ [c])) s _ := completesIn_of_receive rfl hl
  by_cases hshort : body.length < 3
  · have hlen : (body ++ [c]).length = body.length + 1 := List.length_append
    rw [decodeFrame_of_length_lt s.crcTable (by omega), hlen] at hrx
    rw [if_pos hshort]
    exact hrx
  · rw [decodeFrame_append_wrong_byte (Nat.le_of_not_lt hshort) hc] at hrx
    rw [if_neg hshort]
    exact hrx

end Sys2Proof.Machine

/-! ### Fields read at an offset, as wire integers (20_memory R53, 41_frame_codec R125 to R130) -/

namespace Sys2Proof.Machine

section WireReads

variable (f : List Byte) (off : Nat)

theorem memRead_one : memRead f off 1 = (byteAt f off).toNat := by
  rw [memRead_succ, memRead_zero, Nat.mul_zero, Nat.add_zero]

/-- Little-endian: each further byte joins above the ones before it. -/
theorem toNat_append_byte {n : Nat} (hi : BitVec n) (lo : Byte) : (hi ++ lo).toNat = lo.toNat + 256 * hi.toNat := by
  rw [BitVec.toNat_append, Nat.shiftLeft_eq, Nat.mul_comm, ← Nat.two_pow_add_eq_or_of_lt lo.isLt, Nat.add_comm]

/-- MemRead puts the bytes together as the wire integer does, the one at the offset lowest. -/
theorem u16le_eq_wire16 : u16le f off = (wire16 f off).toNat := by
  rw [u16le, memRead_succ, memRead_one, wire16, toNat_append_byte]

theorem u24le_eq_wire24 : u24le f off = (wire24 f off).toNat := by
  rw [u24le, memRead_succ, memRead_succ, memRead_one, wire24, toNat_append_byte, toNat_append_byte]

/-- Sign extension of a word's unsigned value is its two's-complement value. -/
theorem sext_toNat {n : Nat} (v : BitVec n) : sext n v.toNat = v.toInt := by
  rw [sext, BitVec.toInt_eq_msb_cond, BitVec.msb_eq_getLsbD_last, BitVec.getLsbD]
  push_cast
  rfl

theorem i16le_eq_wire16 : i16le f off = (wire16 f off).toInt := by
  rw [i16le, ← sext_toNat, ← u16le_eq_wire16, u16le]

theorem i8_eq_byteAt : i8 f off = (byteAt f off).toInt := by
  rw [i8, ← sext_toNat, memRead_one]

end WireReads

/-! ### What the extractors' rows answer inside the frame -/

section Extractors

variable {f : List Byte} {off : Nat} (s : State)

theorem extract_of_le_length {n : Nat} (h : off + n ≤ f.length) (r : OpResult) :
    extract f off n r s = .next (s.answer r) := by
  have inside : inFrame f off n = true := decide_eq_true h
  rw [extract, if_pos inside, answerWith]

theorem exec_u16le (h : off + 2 ≤ f.length) : exec (.u16le f off) s = .next (s.answer (.nat (u16le f off))) :=
  extract_of_le_length s h _

theorem exec_u24le (h : off + 3 ≤ f.length) : exec (.u24le f off) s = .next (s.answer (.nat (u24le f off))) :=
  extract_of_le_length s h _

theorem exec_i16le (h : off + 2 ≤ f.length) : exec (.i16le f off) s = .next (s.answer (.int (i16le f off))) :=
  extract_of_le_length s h _

theorem exec_i8 (h : off + 1 ≤ f.length) : exec (.i8 f off) s = .next (s.answer (.int (i8 f off))) :=
  extract_of_le_length s h _

/-- TEXT's operand condition is on its second offset alone. -/
theorem exec_text (a : Nat) (h : off ≤ f.length) :
    exec (.text f a off) s = .next (s.answer (.bytes (text f a off))) :=
  extract_of_le_length s h _

end Extractors

section Behind

variable (pre post : List Byte) (b0 b1 b2 : Byte)

/-! The field behind a first part of a frame, whatever stands after it. -/

theorem byteAt_behind : byteAt (pre ++ b0 :: post) pre.length = b0 :=
  byteAt_append_add rfl (b0 :: post) 0

theorem wire16_behind : wire16 (pre ++ b0 :: b1 :: post) pre.length = b1 ++ b0 :=
  wire16_append_add rfl (b0 :: b1 :: post) 0

theorem wire24_behind : wire24 (pre ++ b0 :: b1 :: b2 :: post) pre.length = b2 ++ b1 ++ b0 :=
  wire24_append_add rfl (b0 :: b1 :: b2 :: post) 0

theorem toNat_two_bytes : (b1 ++ b0 : BitVec 16).toNat = b0.toNat ||| b1.toNat <<< 8 := by
  rw [BitVec.toNat_append, Nat.or_comm]

theorem toNat_three_bytes :
    (b2 ++ b1 ++ b0 : BitVec 24).toNat = b0.toNat ||| b1.toNat <<< 8 ||| b2.toNat <<< 16 := by
  rw [BitVec.toNat_append, BitVec.toNat_append, Nat.shiftLeft_or_distrib, ← Nat.shiftLeft_add, Nat.or_comm,
    Nat.or_comm (b2.toNat <<< _), Nat.or_assoc]

end Behind

/-- Settles O14: the value read is the wire integer's, whose width bounds it. -/
theorem unsignedExtractorsReadLittleEndian : Obligations.UnsignedExtractorsReadLittleEndian := by
  intro s pre post b0 b1 b2
  rw [← toNat_three_bytes, ← toNat_two_bytes]
  refine ⟨?u16le, ?u24le, Nat.le_of_lt_succ (b1 ++ b0 : BitVec 16).isLt,
    Nat.le_of_lt_succ (b2 ++ b1 ++ b0 : BitVec 24).isLt⟩
  case u16le =>
    have hin : pre.length + 2 ≤ (pre ++ b0 :: b1 :: post).length := by simp
    rw [exec_u16le s hin, u16le_eq_wire16, wire16_behind, State.answer]
  case u24le =>
    have hin : pre.length + 3 ≤ (pre ++ b0 :: b1 :: b2 :: post).length := by simp
    rw [exec_u24le s hin, u24le_eq_wire24, wire24_behind, State.answer]

/-- Settles O15: the value read is the wire integer's, or the byte's. -/
theorem signedExtractorsReadTwosComplement : Obligations.SignedExtractorsReadTwosComplement := by
  intro s pre post b0 b1
  refine ⟨?i16le, ?i8⟩
  case i16le =>
    have hin : pre.length + 2 ≤ (pre ++ b0 :: b1 :: post).length := by simp
    rw [exec_i16le s hin, i16le_eq_wire16, wire16_behind, State.answer]
  case i8 =>
    have hin : pre.length + 1 ≤ (pre ++ b0 :: post).length := by simp
    rw [exec_i8 s hin, i8_eq_byteAt, byteAt_behind, State.answer]

/-- No byte lies between offsets that meet or cross (log 28). -/
theorem text_of_le (f : List Byte) {a b : Nat} (h : b ≤ a) : text f a b = [] :=
  List.drop_eq_nil_of_le ((List.length_take_le b f).trans h)

/-- Settles O16: `text_between` for a text in the frame, `text_of_le` for crossing offsets. -/
theorem textAnswersRawBytes : Obligations.TextAnswersRawBytes := by
  refine ⟨fun s pre mid post => ?between, fun s f a b hcross hb => ?crossing⟩
  case between =>
    have hin : pre.length + mid.length ≤ (pre ++ mid ++ post).length := by simp
    rw [exec_text s pre.length hin, text_between rfl rfl post, State.answer]
  case crossing => rw [exec_text s a hb, text_of_le f hcross, State.answer]

/-- A temperature byte's value by its unsigned value: the low seven bits are the byte itself below 128, and the byte less
128 from there on. -/
theorem tempSm_eq (b : Byte) :
    tempSm b = if b.toNat < 128 then (b.toNat : Int) else -((b.toNat : Int) - 128) := by
  have hmag : (b &&& 0x7F).toNat = b.toNat % 128 := Nat.and_two_pow_sub_one_eq_mod b.toNat 7
  have hsign : b.getLsbD 7 = decide (128 ≤ b.toNat) :=
    (BitVec.msb_eq_getLsbD_last b).symm.trans (BitVec.msb_eq_decide b)
  have hb : b.toNat < 256 := b.isLt
  simp only [tempSm, hmag, hsign, decide_eq_true_eq]
  split_ifs <;> omega

/-- Settles O13: the answer is `tempSm`. -/
theorem tempSmAnswersSignAndMagnitude : Obligations.TempSmAnswersSignAndMagnitude :=
  fun _ b => ⟨tempSm b, rfl, tempSm_eq b, tempSm_range b⟩

/-! ### ENCODE (41_frame_codec R120, R121) -/

/-- The frame ENCODE writes is its body with the checksum appended, in either command format. -/
theorem encodeFrame_eq_appendCrc (T : CrcTable) (addr op : Byte) (param : Option Byte) :
    encodeFrame T addr op param = appendCrc T ([0x31, addr, op] ++ param.toList) := by
  cases param with
  | none => exact encodeFrame_none T addr op
  | some p => exact encodeFrame_some T addr op p

/-- Settles O12: an appended checksum is valid. -/
theorem encodeBuildsChecksummedFrame : Obligations.EncodeBuildsChecksummedFrame := by
  refine fun s addr op param => ⟨_, rfl, encodeFrame_eq_appendCrc _ _ _ _, ?length, ?valid⟩
  case length =>
    rw [encodeFrame_eq_appendCrc, appendCrc_length]
    cases param <;> rfl
  case valid =>
    rw [encodeFrame_eq_appendCrc]
    exact frameOk_appendCrc _ _

end Sys2Proof.Machine

/-! ### FUEL in closed form (42_scaling R165) -/

namespace Sys2Proof.Machine

theorem fuel_eq (raw : Nat) : fuel raw = (80 * min raw 4095 + 91) / 182 := by
  have hclamp : clamp (raw : Rat) 0 4095 = (min raw 4095 : Nat) := by
    rw [clamp, Nat.cast_min, Nat.cast_ofNat, max_eq_left (by positivity)]
  have hquotient : 100 * scaleMap raw 0 4095 0 18 + 1 / 2 = ((80 * min raw 4095 + 91 : Nat) : Rat) / (182 : Nat) := by
    rw [scaleMap, hclamp]
    push_cast
    ring
  rw [fuel, round2c, hquotient, Rat.floor_natCast_div_natCast, ← Int.natCast_div, Int.toNat_natCast]

/-! ### DECODE's outcome on each kind of frame (60_exceptions R231, 41_frame_codec R140 to R143) -/

section Valid

variable {T : CrcTable} {f : List Byte}

/-- A frame that passes both general checks is decoded by its type. -/
theorem decodeFrame_of_valid (hlen : 4 ≤ f.length) (hok : frameOk T f = true) :
    decodeFrame T f =
      if byteAt f 2 = 0x06 then
        if f.length < 9 then .dropShortForType 0x06 f.length else .reading (readingOf f)
      else if byteAt f 2 = 0x10 then
        if f.length < 44 then .dropShortForType 0x10 f.length else .deviceInfo (deviceInfoOf f)
      else .unrecognized (byteAt f 2) := by
  simp only [decodeFrame, hok, if_neg (Nat.not_lt.mpr hlen), Bool.not_true, Bool.false_eq_true, if_false]
  split_ifs <;> simp only [*]

theorem decodeFrame_short_reading (hlen : 4 ≤ f.length) (hok : frameOk T f = true) (htype : byteAt f 2 = 0x06)
    (hshort : f.length < 9) : decodeFrame T f = .dropShortForType 0x06 f.length := by
  rw [decodeFrame_of_valid hlen hok, if_pos htype, if_pos hshort]

theorem decodeFrame_reading (hlen : 9 ≤ f.length) (hok : frameOk T f = true) (htype : byteAt f 2 = 0x06) :
    decodeFrame T f = .reading (readingOf f) := by
  rw [decodeFrame_of_valid (by omega) hok, if_pos htype, if_neg (by omega)]

theorem decodeFrame_short_info (hlen : 4 ≤ f.length) (hok : frameOk T f = true) (htype : byteAt f 2 = 0x10)
    (hshort : f.length < 44) : decodeFrame T f = .dropShortForType 0x10 f.length := by
  rw [decodeFrame_of_valid hlen hok, if_neg (by simp [htype]), if_pos htype, if_pos hshort]

theorem decodeFrame_info (hlen : 44 ≤ f.length) (hok : frameOk T f = true) (htype : byteAt f 2 = 0x10) :
    decodeFrame T f = .deviceInfo (deviceInfoOf f) := by
  rw [decodeFrame_of_valid (by omega) hok, if_neg (by simp [htype]), if_pos htype, if_neg (by omega)]

theorem decodeFrame_other (hlen : 4 ≤ f.length) (hok : frameOk T f = true) (h06 : byteAt f 2 ≠ 0x06)
    (h10 : byteAt f 2 ≠ 0x10) : decodeFrame T f = .unrecognized (byteAt f 2) := by
  rw [decodeFrame_of_valid hlen hok, if_neg h06, if_neg h10]

end Valid

/-- An arrival's next state from its frame's outcome. -/
theorem completesIn_of_outcome {i : Instr} {s : State} {f : List Byte} {o : DecodeOutcome}
    (hexec : exec i s = receive f s) (hl : s.link = .opened) (ho : decodeFrame s.crcTable f = o) :
    completesIn i s ((s.setInfo (infoAfter o s.info)).record (.event 0x07) o.emissions o.status) :=
  ho ▸ completesIn_of_receive hexec hl

/-- Settles O41: each clause is one branch of DECODE's checks. -/
theorem rxChecksInOrder : Obligations.RxChecksInOrder := by
  intro s f hl
  have ends {o : DecodeOutcome} (ho : decodeFrame s.crcTable f = o) :
      completesIn (.rx f) s ((s.setInfo (infoAfter o s.info)).record (.event 0x07) o.emissions o.status) :=
    completesIn_of_outcome rfl hl ho
  refine ⟨fun hshort => ends (decodeFrame_of_length_lt _ hshort), ?badChecksum, fun hlen hok t ht => ?byType⟩
  case badChecksum =>
    rintro body c rfl hlen hc
    have hbody : 3 ≤ body.length := by simpa using hlen
    exact ends (decodeFrame_append_wrong_byte hbody hc)
  case byType =>
    obtain rfl : byteAt f 2 = t := by rw [byteAt, List.getD_eq_getElem?_getD, ht, Option.getD_some]
    exact ⟨fun h06 hshort => ends (decodeFrame_short_reading hlen hok h06 hshort),
      fun h06 hlong => ⟨_, ends (decodeFrame_reading hlong hok h06)⟩,
      fun h10 hshort => ends (decodeFrame_short_info hlen hok h10 hshort),
      fun h10 hlong => ⟨_, ends (decodeFrame_info hlong hok h10)⟩,
      fun h06 h10 => ends (decodeFrame_other hlen hok h06 h10)⟩

/-- Settles O43: the function is `decodeFrame`. -/
theorem decodeOutcomeDependsOnFrameAndTableOnly : Obligations.DecodeOutcomeDependsOnFrameAndTableOnly := by
  intro T
  refine ⟨decodeFrame T, ?_⟩
  rintro s f rfl
  refine ⟨_, rfl, ?_⟩
  rw [applyDecode_eq]
  cases decodeFrame s.crcTable f <;> rfl

/-! ### The three response rows (41_frame_codec R140 to R144) -/

/-- A frame whose last byte is the checksum of the bytes before it is valid. -/
theorem frameOk_of_checksum {T : CrcTable} {body : List Byte} {c : Byte} (h : c = crc8 T (body ++ [c]).dropLast) :
    frameOk T (body ++ [c]) = true := by
  rw [List.dropLast_concat] at h
  rw [frameOk_append_byte, beq_iff_eq]
  exact h

/-- A frame's reading from its RSP9 fields. -/
theorem readingOf_eq_fields (f : List Byte) :
    readingOf f =
      { temperature := tempSm (readingFrameOf f).temperature
        rawLevel := (readingFrameOf f).rawLevel.toNat
        fuelCenti := fuel (readingFrameOf f).rawLevel.toNat
        frequencyValue := (readingFrameOf f).frequencyValue.toNat } := by
  simp only [readingOf, readingFrameOf, u16le_eq_wire16]

/-- A frame's device-info record from its RSP44 fields. -/
theorem deviceInfoOf_eq_fields (f : List Byte) :
    deviceInfoOf f =
      { model := (infoFrameOf f).model
        firmwareVersion := (infoFrameOf f).firmwareVersion
        mode := (infoFrameOf f).mode.toInt
        interval := (infoFrameOf f).interval.toInt
        filterDepth := (infoFrameOf f).filterDepth.toInt
        calibrationMin := (infoFrameOf f).calibrationMin.toInt
        calibrationMax := (infoFrameOf f).calibrationMax.toInt
        counter1 := (infoFrameOf f).counter1.toNat
        counter2 := (infoFrameOf f).counter2.toNat } := by
  simp only [deviceInfoOf, infoFrameOf, i8_eq_byteAt, i16le_eq_wire16, u24le_eq_wire24]

/-- Settles O38: the fields read back from the frame are the row's own. -/
theorem readingFrameIsDelivered : Obligations.ReadingFrameIsDelivered := by
  intro s fr hl hsum
  have hlen : 9 ≤ (readingFrameBytes fr).length := by rw [readingFrameBytes_length]; omega
  have hdecode := decodeFrame_reading hlen (frameOk_of_checksum hsum) rfl
  rw [readingOf_eq_fields, readingFrameOf_bytes, tempSm_eq, fuel_eq] at hdecode
  exact completesIn_of_outcome rfl hl hdecode

/-- Settles O39: likewise for a frame whose text fields have their lengths. -/
theorem infoFrameIsStoredAndDelivered : Obligations.InfoFrameIsStoredAndDelivered := by
  intro s fr hl hfits hsum
  obtain ⟨hmodel, hfw⟩ : fr.model.length = 16 ∧ fr.firmwareVersion.length = 11 := by
    simpa [Instr.fitsLayout] using hfits
  have hlen : 44 ≤ (infoFrameBytes fr).length := by rw [infoFrameBytes_length hmodel hfw]; omega
  have hdecode := decodeFrame_info hlen (frameOk_of_checksum hsum) rfl
  rw [deviceInfoOf_eq_fields, infoFrameOf_bytes hmodel hfw] at hdecode
  exact completesIn_of_outcome rfl hl hdecode

/-- Settles O40: the type of the frame is the row's `kind`. -/
theorem otherFrameIsAcceptedAndIgnored : Obligations.OtherFrameIsAcceptedAndIgnored := by
  intro s fr hl hfits hsum
  obtain ⟨h06, h10⟩ : fr.kind ≠ 0x06 ∧ fr.kind ≠ 0x10 := by simpa [Instr.fitsLayout] using hfits
  have hlen : 4 ≤ (otherFrameBytes fr).length := by rw [otherFrameBytes_length]; omega
  exact completesIn_of_outcome rfl hl (decodeFrame_other hlen (frameOk_of_checksum hsum) h06 h10)

end Sys2Proof.Machine

/-! ### CLAMP and SCALE, clause by clause (42_scaling R160 to R163) -/

namespace Sys2Proof.Machine

section Clamp

variable {α : Type} [LinearOrder α] {x y lo hi : α}

theorem clamp_of_le_lo (h : x ≤ lo) : clamp x lo hi = lo :=
  max_eq_right ((min_le_left x hi).trans h)

/-- The lower bound is applied last, so it wins over an upper bound below it. -/
theorem clamp_of_hi_le_lo (h : hi ≤ lo) : clamp x lo hi = lo :=
  max_eq_right ((min_le_right x hi).trans h)

theorem clamp_of_hi_le (hrange : lo ≤ hi) (h : hi ≤ x) : clamp x lo hi = hi := by
  rw [clamp, min_eq_right h, max_eq_left hrange]

theorem lo_le_clamp : lo ≤ clamp x lo hi :=
  le_max_right _ _

theorem clamp_le_hi (hrange : lo ≤ hi) : clamp x lo hi ≤ hi :=
  max_le (min_le_right x hi) hrange

/-- In a range that is not inverted the two steps of CLAMP commute. -/
theorem clamp_eq_lower_then_upper (hrange : lo ≤ hi) : clamp x lo hi = min (max x lo) hi := by
  rw [clamp, max_min_distrib_right, max_eq_left hrange]

theorem clamp_le_clamp (h : x ≤ y) : clamp x lo hi ≤ clamp y lo hi :=
  max_le_max_right lo (min_le_min_right hi h)

end Clamp

/-- Settles O18: the answer is `clamp`, whose bounds are lemmas of its own. -/
theorem clampAnswersUpperThenLower : Obligations.ClampAnswersUpperThenLower := by
  intro s x lo hi
  refine ⟨clamp x lo hi, rfl, rfl, fun hrange => ?inRange, fun hinverted => clamp_of_hi_le_lo hinverted.le⟩
  case inRange => exact ⟨lo_le_clamp, clamp_le_hi hrange, clamp_eq_lower_then_upper hrange⟩

section Scale

variable {x inMin inMax outMin outMax : Rat}

theorem scale_of_ne (h : inMax ≠ inMin) :
    scale x inMin inMax outMin outMax = some (scaleMap x inMin inMax outMin outMax) :=
  if_neg h

theorem scale_equal_bounds (x m outMin outMax : Rat) : scale x m m outMin outMax = none :=
  if_pos rfl

theorem exec_scale_of_ne (s : State) (h : inMax ≠ inMin) :
    exec (.scale x inMin inMax outMin outMax) s =
      .next (s.answer (.rat (scaleMap x inMin inMax outMin outMax))) := by
  rw [exec, execScale, scale_of_ne h]
  rfl

theorem exec_scale_equal_bounds (s : State) (x m outMin outMax : Rat) :
    exec (.scale x m m outMin outMax) s = .fault (.scaleDegenerate m) := by
  rw [exec, execScale, scale_equal_bounds]

/-- Where the clamped value is the lower input bound the linear term is 0. -/
theorem scaleMap_of_clamp_eq_inMin (h : clamp x inMin inMax = inMin) :
    scaleMap x inMin inMax outMin outMax = outMin := by
  rw [scaleMap, h, sub_self, mul_zero, zero_add]

/-- Where it is the upper input bound the denominator cancels. -/
theorem scaleMap_of_clamp_eq_inMax (hne : inMax ≠ inMin) (h : clamp x inMin inMax = inMax) :
    scaleMap x inMin inMax outMin outMax = outMax := by
  rw [scaleMap, h, div_mul_cancel₀ _ (sub_ne_zero.mpr hne), sub_add_cancel]

end Scale

/-- Settles O19: `x` at an end of the range, and every `x` in an inverted one, is clamped to an input bound. -/
theorem scaleAnswersLinearMap : Obligations.ScaleAnswersLinearMap := by
  intro s x inMin inMax outMin outMax hne
  refine ⟨_, exec_scale_of_ne s hne, rfl, ?atMin, ?atMax, ?inverted⟩
  case atMin =>
    rintro rfl _
    exact scaleMap_of_clamp_eq_inMin (clamp_of_le_lo le_rfl)
  case atMax =>
    rintro rfl hlt
    exact scaleMap_of_clamp_eq_inMax hne (clamp_of_hi_le hlt.le le_rfl)
  case inverted => exact fun hinverted => scaleMap_of_clamp_eq_inMin (clamp_of_hi_le_lo hinverted.le)

/-- Settles O20: SCALE has no value there, and a fault is marked as it is. -/
theorem degenerateScaleFaults : Obligations.DegenerateScaleFaults := by
  intro s x m outMin outMax
  rw [exec_scale_equal_bounds]
  exact ⟨rfl, rfl⟩

/-! ### ROUND2C, and SCALE and FUEL at the fuel constants (42_scaling R164 to R167) -/

/-- Settles O21: `round2c` is a floor. -/
theorem round2cAnswersNearestHundredth : Obligations.Round2cAnswersNearestHundredth :=
  fun _ q => ⟨round2c q, rfl, Int.floor_le _, Int.lt_floor_add_one _⟩

/-- SCALE at the fuel constants has a value for every input. -/
theorem scale_fuel (x : Rat) : scale x 0 4095 0 18 = some (scaleMap x 0 4095 0 18) :=
  scale_of_ne (by norm_num)

theorem scale_fuel_le {x : Rat} (h : x ≤ 0) : scale x 0 4095 0 18 = some 0 := by
  rw [scale_fuel, scaleMap_of_clamp_eq_inMin (clamp_of_le_lo h)]

theorem scale_fuel_ge {x : Rat} (h : 4095 ≤ x) : scale x 0 4095 0 18 = some 18 := by
  rw [scale_fuel, scaleMap_of_clamp_eq_inMax (by norm_num) (clamp_of_hi_le (by norm_num) h)]

theorem scaleMap_fuel_mono {x y : Rat} (h : x ≤ y) : scaleMap x 0 4095 0 18 ≤ scaleMap y 0 4095 0 18 := by
  have hclamp : clamp x 0 4095 ≤ clamp y 0 4095 := clamp_le_clamp h
  rw [scaleMap, scaleMap]
  linarith

theorem fuel_mono {r1 r2 : Nat} (h : r1 ≤ r2) : fuel r1 ≤ fuel r2 := by
  rw [fuel_eq, fuel_eq]
  omega

/-- Settles O23: CLAMP does not decrease and ends in the bounds; FUEL by its closed form. -/
theorem fuelScaleIsMonotone : Obligations.FuelScaleIsMonotone := by
  have below {x : Rat} (h : x ≤ 0) : scale x 0 4095 0 18 = scale 0 0 4095 0 18 := by
    rw [scale_fuel_le h, scale_fuel_le le_rfl]
  have above {x : Rat} (h : 4095 ≤ x) : scale x 0 4095 0 18 = scale 4095 0 4095 0 18 := by
    rw [scale_fuel_ge h, scale_fuel_ge le_rfl]
  exact ⟨fun x y _ hxy _ => ⟨_, _, scale_fuel x, scale_fuel y, scaleMap_fuel_mono hxy⟩, scale_fuel_le le_rfl,
    scale_fuel_ge le_rfl, below (by norm_num), above (by norm_num), fun _ => scale_fuel_le, fun _ => scale_fuel_ge,
    fun _ _ => fuel_mono⟩

/-- The hundredths FUEL rounds: 18 over 4095 is 80 over 182 in hundredths. -/
theorem hundredths_scaleMap_fuel (raw : Nat) :
    100 * scaleMap raw 0 4095 0 18 = ((80 * min raw 4095 : Nat) : Rat) / 182 := by
  have hclamp : clamp (raw : Rat) 0 4095 = (min raw 4095 : Nat) := by
    rw [clamp, Nat.cast_min, Nat.cast_ofNat, max_eq_left (by positivity)]
  rw [scaleMap, hclamp]
  push_cast
  ring

theorem round2c_scaleMap_fuel (raw : Nat) : round2c (scaleMap raw 0 4095 0 18) = (fuel raw : Int) := by
  have hnonneg : 0 ≤ round2c (scaleMap raw 0 4095 0 18) := by
    rw [round2c, hundredths_scaleMap_fuel]
    exact Int.floor_nonneg.mpr (by positivity)
  rw [fuel, Int.toNat_of_nonneg hnonneg]

/-- An even number of 182nds is no nearer than 1/182 to a half-integer, which is an odd number of them. -/
theorem even_div_182_far_from_tie (k : Nat) (n : Int) :
    (1 : Rat) / 182 ≤ |((2 * k : Nat) : Rat) / 182 - (n + 1 / 2)| := by
  have hodd : 2 * (k : Int) - 182 * n - 91 ≠ 0 := by omega
  have hone : (1 : Rat) ≤ |((2 * (k : Int) - 182 * n - 91 : Int) : Rat)| := by
    exact_mod_cast Int.one_le_abs hodd
  calc (1 : Rat) / 182 ≤ |((2 * (k : Int) - 182 * n - 91 : Int) : Rat)| / 182 := by gcongr
    _ = |((2 * (k : Int) - 182 * n - 91 : Int) : Rat) / 182| := by rw [abs_div, Nat.abs_ofNat]
    _ = |((2 * k : Nat) : Rat) / 182 - (n + 1 / 2)| := by
      congr 1
      push_cast
      ring

/-- Settles O22: the scaled value is an even number of 182nds of a hundredth. -/
theorem fuelAnswersClosedForm : Obligations.FuelAnswersClosedForm := by
  intro s raw
  refine ⟨_, scale_fuel raw.toNat, ?rounds, ?answers, fun n => ?noTie⟩
  case rounds => rw [round2c_scaleMap_fuel, fuel_eq]
  case answers =>
    rw [← fuel_eq]
    rfl
  case noTie =>
    have heven : 80 * min raw.toNat 4095 = 2 * (40 * min raw.toNat 4095) := by omega
    rw [hundredths_scaleMap_fuel, heven]
    exact even_div_182_far_from_tie _ n

end Sys2Proof.Machine

/-! ### Handling a delivery (43_polling_fsm R180, 00_scope R14) -/

namespace Sys2Proof.Machine

/-- The other side of `step_next`: a delivery that decodes is its row, consumed and with its draws current. -/
theorem step_of_decode {s : State} {d : Delivery} {rest : List Delivery} {i : Instr} (hinbox : s.inbox = d :: rest)
    (hdecode : decode d.packet = .ok i) : step s = exec i ((s.setInbox rest).setDraws d.draws) := by
  simp [step, takeDelivery, hinbox, hdecode]

theorem decode_tablePacket {nbits w : Nat} {i : Instr} (h : decodeTableWord nbits w = some i) :
    decode (tablePacket nbits w) = .ok i := by
  cases hdecode : decode (tablePacket nbits w) with
  | ok j =>
    obtain rfl : j = i := by simpa [decodeTableWord, hdecode] using h
    rfl
  | error e => simp [decodeTableWord, hdecode] at h

/-- Settles O4: a placed word's delivery, once consumed, leaves the state it was placed in. -/
theorem stepRunsDecodedRow : Obligations.StepRunsDecodedRow :=
  ⟨fun _ _ _ _ => step_of_decode,
    fun s nbits w _ h => step_of_decode (s := s.withFetchWord nbits w) rfl (decode_tablePacket h)⟩

end Sys2Proof.Machine

/-! ### CONNECT and CLOSE (43_polling_fsm R181 to R183, R196) -/

namespace Sys2Proof.Machine

variable {s : State}

theorem legalAddress_integer {v : Int} (hlo : 0 ≤ v) (hhi : v ≤ 255) :
    legalAddress (.integer v) = some (BitVec.ofInt 8 v) :=
  if_pos ⟨hlo, hhi⟩

theorem legalAddress_eq_none {x : HostValue} (h : ∀ v, x = .integer v → v < 0 ∨ 255 < v) : legalAddress x = none := by
  refine Option.eq_none_iff_forall_ne_some.mpr fun a ha => ?_
  obtain ⟨n, hlo, hhi, hx, -⟩ := legalAddress_eq_some_iff.mp ha
  have hout := h n hx
  omega

theorem exec_connect_opened (hl : s.link = .opened) : exec .connect s = .refused .connectWhileOpen := by
  simp [exec, execConnect, hl]

theorem exec_connect_illegal (hl : s.link = .closed) (ha : legalAddress s.cfg.address = none) :
    exec .connect s = .refused .cfgAddressOutOfRange := by
  simp [exec, execConnect, hl, ha]

theorem exec_connect_legal {a : Byte} (hl : s.link = .closed) (ha : legalAddress s.cfg.address = some a) :
    exec .connect s = .next (if s.draws.openOk then openConnection a s else failOpen s) := by
  simp [exec, execConnect, hl, ha]

/-- A new connection, field by field, with the timer's period left to `pollPeriod`. -/
theorem agreesButLog_openConnection {a : Byte} {period : Nat} (h : pollPeriod s.cfg = period) :
    agreesButLog (openConnection a s)
      { s with
        link := .opened, phase := .awaitingFirstPoll, addr := some a, info := none, timer := some period
        calls := s.calls ++ [.openPort s.cfg.port s.cfg.baud true]
        trace := s.trace ++ [⟨.event 0x01, [], .ok⟩] } :=
  h ▸ rfl

/-- Settles O24: the next state is `openConnection`. -/
theorem connectOpensConnection : Obligations.ConnectOpensConnection := by
  intro s v hl hcfg hlo hhi hopen
  have hexec := exec_connect_legal hl (hcfg ▸ legalAddress_integer hlo hhi)
  rw [if_pos hopen] at hexec
  refine ⟨_, hexec, agreesButLog_openConnection ?period⟩
  case period =>
    rw [pollPeriod]
    cases s.cfg.pollMs <;> rfl

/-- Settles O25: the next state is `failOpen`, which also logs. -/
theorem failedOpenChangesNoEngineState : Obligations.FailedOpenChangesNoEngineState := by
  intro s v hl hcfg hlo hhi hopen
  have hexec := exec_connect_legal hl (hcfg ▸ legalAddress_integer hlo hhi)
  rw [hopen] at hexec
  exact ⟨_, hexec, rfl⟩

theorem userWrite_opened_notInteger (tag op : Byte) (hi : Int) (hl : s.link = .opened) :
    userWrite tag op hi .notInteger s = .refused .userValueNotInteger := by
  simp [userWrite, hl]

/-- Settles O26. -/
theorem refusalsByReason : Obligations.RefusalsByReason := by
  refine fun s => ⟨exec_connect_opened, fun hl haddr => exec_connect_illegal hl (legalAddress_eq_none haddr),
    fun hl => ⟨?mode, ?interval, ?filter⟩, fun i r h => ?mark⟩
  case mode => exact userWrite_opened_notInteger 0x04 0x17 2 hl
  case interval => exact userWrite_opened_notInteger 0x05 0x13 255 hl
  case filter => exact userWrite_opened_notInteger 0x06 0x0E 20 hl
  case mark =>
    rw [h]
    rfl

/-- Settles O27: the next state is `closeConnection`. -/
theorem closeOnlyClosesTheLink : Obligations.CloseOnlyClosesTheLink :=
  fun _ => ⟨_, rfl, rfl⟩

end Sys2Proof.Machine

/-! ### Events on a closed link (43_polling_fsm R184, R188, R195) -/

namespace Sys2Proof.Machine

variable {s : State}

theorem sendIfOpen_closed (src : Source) (tag op : Byte) (param : Option Byte) (hl : s.link = .closed) :
    sendIfOpen src tag op param s = ignoreClosed src tag s := by
  simp [sendIfOpen, hl]

theorem userWrite_closed (tag op : Byte) (hi : Int) (v : HostValue) (hl : s.link = .closed) :
    userWrite tag op hi v s = ignoreClosed (.event tag) tag s := by
  simp [userWrite, hl]

theorem receive_closed (f : List Byte) (hl : s.link = .closed) :
    receive f s = ignoreClosed (.event 0x07) 0x07 s := by
  simp [receive, hl]

theorem execTick_closed (hl : s.link = .closed) : execTick s = ignoreClosed (.event 0x02) 0x02 s := by
  simp [execTick, hl]

/-- A row that is ignored completes with one entry more and no other change (60_exceptions R227). -/
theorem completesIn_of_ignoreClosed {i : Instr} {src : Source} {tag : Byte}
    (hexec : exec i s = ignoreClosed src tag s) : completesIn i s (s.record src [] (.ignoredLinkClosed tag)) :=
  ⟨_, hexec.trans (ignoreClosed_next src tag s), rfl⟩

/-- Settles O28. -/
theorem closedLinkIgnoresEvents : Obligations.ClosedLinkIgnoresEvents := by
  intro s hl
  refine ⟨?tick, ?periodic, fun v => ?mode, fun v => ?interval, fun v => ?filter, fun f => ?rx⟩
  case tick => exact completesIn_of_ignoreClosed (execTick_closed hl)
  case periodic => exact completesIn_of_ignoreClosed (sendIfOpen_closed (.event 0x03) 0x03 0x07 none hl)
  case mode => exact completesIn_of_ignoreClosed (userWrite_closed 0x04 0x17 2 v hl)
  case interval => exact completesIn_of_ignoreClosed (userWrite_closed 0x05 0x13 255 v hl)
  case filter => exact completesIn_of_ignoreClosed (userWrite_closed 0x06 0x0E 20 v hl)
  case rx => exact completesIn_of_ignoreClosed (receive_closed f hl)

end Sys2Proof.Machine

/-! ### What TICK sends (43_polling_fsm R185, R186) -/

namespace Sys2Proof.Machine

variable {s t u : State} {i : Instr} {a : Byte} {src : Source} {f : List Byte}

/-- The opcode a TICK sends in each polling state: READ_INFO, then READ_LEVEL. -/
def pollOpcode : Phase → Byte
  | .awaitingFirstPoll => 0x10
  | .steadyPolling => 0x06

theorem setPhase_self {p : Phase} (h : s.phase = p) : s.setPhase p = s := by
  subst h
  rfl

/-- A TICK on an open link sends its polling state's command and leaves SteadyPolling, whatever the draw. -/
theorem completesSending_tick (hl : s.link = .opened) (ha : s.addr = some a) :
    completesSending .tick s (.event 0x02) (cmd4Bytes s.crcTable a (pollOpcode s.phase))
      (s.setPhase .steadyPolling) := by
  cases hp : s.phase with
  | awaitingFirstPoll =>
    have hexec : exec .tick s = sendCommand (.event 0x02) 0x10 none (·.setPhase .steadyPolling) s := by
      simp [exec, execTick, hl, hp]
    exact encodeFrame_none s.crcTable a 0x10 ▸ completesSending_of_sendCommand hexec ha rfl
  | steadyPolling =>
    have hexec : exec .tick s = sendCommand (.event 0x02) 0x06 none id s := by
      simp [exec, execTick, hl, hp]
    rw [setPhase_self hp]
    exact encodeFrame_none s.crcTable a 0x06 ▸ completesSending_of_sendCommand hexec ha rfl

/-- Settles O30. -/
theorem firstTickSendsReadInfo : Obligations.FirstTickSendsReadInfo := by
  intro s a hl hp ha
  have h := completesSending_tick hl ha
  rw [hp] at h
  exact h

/-- Settles O31. -/
theorem steadyTickSendsReadLevel : Obligations.SteadyTickSendsReadLevel := by
  intro s a hl hp ha
  have h := completesSending_tick hl ha
  rw [setPhase_self hp, hp] at h
  exact h

theorem agreesButLog.trace_phase (h : agreesButLog t u) : t.trace = u.trace ∧ t.phase = u.phase := by
  rw [agreesButLog] at h
  rw [h]
  exact ⟨rfl, rfl⟩

/-- A row that completes sending leaves one entry with its one frame, and the polling state of `u`, whatever the
draw. -/
theorem completesSending.leaves_entry (h : completesSending i s src f u) :
    ∃ t e, exec i s = .next t ∧ t.trace = u.trace ++ [e] ∧ e.source = src ∧ e.frames = [f] ∧ t.phase = u.phase := by
  obtain ⟨hok, hfail⟩ := h
  cases hd : s.draws.txOk with
  | true =>
    obtain ⟨t, hexec, ht⟩ := hok hd
    obtain ⟨htrace, hphase⟩ := ht.trace_phase
    exact ⟨t, _, hexec, htrace, rfl, rfl, hphase⟩
  | false =>
    obtain ⟨t, hexec, ht⟩ := hfail hd
    obtain ⟨htrace, hphase⟩ := ht.trace_phase
    exact ⟨t, _, hexec, htrace, rfl, rfl, hphase⟩

end Sys2Proof.Machine

/-! ### What the USER events send (43_polling_fsm R189 to R193) -/

namespace Sys2Proof.Machine

variable {s t : State} {i : Instr} {a p : Byte}

theorem clamp_zero_eq_ite {v hi : Int} (h : 0 ≤ hi) :
    clamp v 0 hi = if v < 0 then 0 else if hi < v then hi else v := by
  rw [clamp]
  split_ifs <;> omega

/-- The parameter byte is the clamped integer itself, whatever the integer. -/
theorem clampParam_eq {v hi : Int} (h : (p.toNat : Int) = clamp v 0 hi) : clampParam v hi = p := by
  rw [clampParam, ← h, BitVec.ofInt_natCast, BitVec.ofNat_toNat, BitVec.setWidth_eq]

/-- A USER write of an integer on an open link sends format CMD5 with the clamped parameter. -/
theorem completesSending_of_userWrite {tag op : Byte} {v hi : Int}
    (hexec : exec i s = userWrite tag op hi (.integer v) s) (hl : s.link = .opened) (ha : s.addr = some a)
    (hp : (p.toNat : Int) = clamp v 0 hi) :
    completesSending i s (.event tag) (cmd5Bytes s.crcTable a op p) s := by
  rw [userWrite_opened_integer tag op hi v hl, clampParam_eq hp] at hexec
  exact encodeFrame_some s.crcTable a op p ▸ completesSending_of_sendCommand (after := id) hexec ha rfl

/-- Settles O32. -/
theorem userPeriodicSendsReqPeriodic : Obligations.UserPeriodicSendsReqPeriodic := by
  intro s a hl ha
  have h : completesSending .userPeriodic s (.event 0x03) (encodeFrame s.crcTable a 0x07 none) s :=
    completesSending_of_sendIfOpen (tag := 0x03) rfl hl ha
  rw [encodeFrame_none] at h
  exact h

/-- Settles O33. -/
theorem userModeSendsClampedMode : Obligations.UserModeSendsClampedMode := by
  intro s a p v hl ha hp
  have hclamp : (p.toNat : Int) = clamp v 0 2 := by
    rw [hp, clamp]
    split_ifs <;> omega
  exact completesSending_of_userWrite rfl hl ha hclamp

/-- Settles O34. -/
theorem userIntervalSendsClampedInterval : Obligations.UserIntervalSendsClampedInterval :=
  fun _ _ _ _ hl ha hp => completesSending_of_userWrite rfl hl ha (hp.trans (clamp_zero_eq_ite (by decide)).symm)

/-- Settles O35. -/
theorem userFilterSendsClampedDepth : Obligations.UserFilterSendsClampedDepth :=
  fun _ _ _ _ hl ha hp => completesSending_of_userWrite rfl hl ha (hp.trans (clamp_zero_eq_ite (by decide)).symm)

/-- A USER event is an event, and none that connects, closes, polls or receives. -/
theorem userEvent_is_no_other
    (h : i = .userPeriodic ∨ ∃ v, i = .userMode v ∨ i = .userInterval v ∨ i = .userFilter v) :
    isEvent i = true ∧ i ≠ .connect ∧ i ≠ .close ∧ i ≠ .tick ∧ rowSource i ≠ .event 0x07 := by
  rcases h with rfl | ⟨v, rfl | rfl | rfl⟩ <;> simp [isEvent, rowSource]

/-- Settles O49: of the effects a row can have, a USER event has only those of a row that is ignored or sends. -/
theorem userEventsKeepSession : Obligations.UserEventsKeepSession := by
  intro i s t hi h
  obtain ⟨hevent, hconnect, hclose, htick, hrx⟩ := userEvent_is_no_other hi
  cases exec_next h with
  | ignored => simp
  | sentOk => simp [phaseAfterSend, htick]
  | sentFail _ _ _ _ _ _ hd => simp [phaseAfterSend, htick, hd]
  | received _ _ _ hs => exact absurd hs hrx
  | decodedFree => cases hevent
  | answered => simp
  | connected | openFailed => exact absurd rfl hconnect
  | closed => exact absurd rfl hclose

/-- Settles O44: both apply the same outcome. -/
theorem rxIsDecodeWhileOpen : Obligations.RxIsDecodeWhileOpen :=
  fun s f hl => ⟨_, _, _, _, receive_opened f hl, rfl, applyDecode_trace _ _ s, applyDecode_trace _ _ s, rfl, rfl,
    by simp⟩

end Sys2Proof.Machine

/-! ### Runs over rows -/

namespace Sys2Proof.Machine

variable {s t u : State} {i : Instr} {a : Byte}

/-- A run that completes handles its first row, then the others. -/
theorem runRows_cons_next {d : Draws} {rows : List (Instr × Draws)} (h : runRows ((i, d) :: rows) s = .next t) :
    ∃ u, exec i (s.setDraws d) = .next u ∧ runRows rows u = .next t := by
  cases hexec : exec i (s.setDraws d) with
  | next u => exact ⟨u, rfl, by simpa [runRows, hexec] using h⟩
  | fault r => simp [runRows, hexec] at h
  | refused r => simp [runRows, hexec] at h

/-- A property that new draws and every allowed row keep is kept by a run of allowed rows. -/
theorem runRows_keeps {P : State → Prop} {allowed : Instr → Prop} (hdraws : ∀ u d, P u → P (u.setDraws d))
    (hrow : ∀ i u v, allowed i → exec i u = .next v → P u → P v) {rows : List (Instr × Draws)}
    (hrows : ∀ p ∈ rows, allowed p.1) (h : runRows rows s = .next t) (hs : P s) : P t := by
  induction rows generalizing s with
  | nil =>
    obtain rfl : s = t := Host.Outcome.next.inj h
    exact hs
  | cons p rows ih =>
    obtain ⟨u, hexec, hrest⟩ := runRows_cons_next h
    obtain ⟨hfirst, hothers⟩ := List.forall_mem_cons.mp hrows
    exact ih hothers hrest (hrow p.1 _ u hfirst hexec (hdraws s p.2 hs))

/-- No row but CONNECT and TICK moves the polling state. -/
theorem exec_keeps_phase (hconnect : i ≠ .connect) (htick : i ≠ .tick) (h : exec i s = .next t) :
    t.phase = s.phase := by
  by_contra hne
  rcases onlyConnectAndTickWritePhase i s t h hne with ⟨hi, -⟩ | ⟨hi, -⟩
  · exact hconnect hi
  · exact htick hi

/-- SteadyPolling ends only by CONNECT. -/
theorem exec_keeps_steadyPolling (hconnect : i ≠ .connect) (h : exec i s = .next t) (hs : s.phase = .steadyPolling) :
    t.phase = .steadyPolling := by
  by_contra hne
  rcases onlyConnectAndTickWritePhase i s t h (hs ▸ hne) with ⟨hi, -⟩ | ⟨-, -, -, ht⟩
  · exact hconnect hi
  · exact hne ht

/-- Settles O57: a run keeps what each of its rows keeps, and `completesSending_tick` gives the one move. -/
theorem pollingStateMovesOnceAConnection : Obligations.PollingStateMovesOnceAConnection := by
  refine ⟨fun s t rows hrows h => ?stays, fun s hl ha => ?moves, fun s t rows hrows hs h => ?steady⟩
  case stays =>
    exact runRows_keeps (P := fun u => u.phase = s.phase) (allowed := fun i => i ≠ .connect ∧ i ≠ .tick)
      (fun _ _ hu => hu) (fun _ _ _ hi hexec hu => (exec_keeps_phase hi.1 hi.2 hexec).trans hu) hrows h rfl
  case moves =>
    obtain ⟨a, ha⟩ := Option.isSome_iff_exists.mp ha
    obtain ⟨t, _, hexec, _, _, _, hphase⟩ := (completesSending_tick hl ha).leaves_entry
    exact ⟨t, hexec, hphase⟩
  case steady =>
    exact runRows_keeps (P := fun u => u.phase = .steadyPolling) (fun _ _ hu => hu)
      (fun _ _ _ => exec_keeps_steadyPolling) hrows h hs

/-- No row but CONNECT writes the address. -/
theorem exec_keeps_addr (hconnect : i ≠ .connect) (h : exec i s = .next t) : t.addr = s.addr := by
  by_contra hne
  exact hconnect (onlyConnectWritesAddress i s t h hne).1

end Sys2Proof.Machine

/-! ### The frames of a connection (43_polling_fsm R197, R198) -/

namespace Sys2Proof.Machine

variable {s t u : State} {i : Instr} {a : Byte}

/-- Every command frame carries its address at offset 1 (30_encoding R71, R72). -/
theorem isCommandFrame.address {T : CrcTable} {f : List Byte} (h : isCommandFrame T a f) : f[1]? = some a := by
  rcases h with rfl | rfl | rfl | ⟨p, -, rfl⟩ | ⟨p, rfl⟩ | ⟨p, -, rfl⟩ <;> rfl

/-- A decode's entry holds no frame. -/
theorem frames_emissions (src : Source) (o : DecodeOutcome) :
    (⟨src, o.emissions, o.status⟩ : TraceEntry).frames = [] := by
  cases o <;> rfl

/-- What a row adds to the trace: entries of its own source, whose frames are commands to the latched address. -/
theorem RowEffect.extends_trace (h : RowEffect s i t) :
    ∃ new, t.trace = s.trace ++ new ∧ ∀ e ∈ new, e.source = rowSource i ∧
      ∀ f ∈ e.frames, ∃ a, s.addr = some a ∧ isCommandFrame s.crcTable a f := by
  cases h with
  | ignored | connected | openFailed | closed => exact ⟨[_], rfl, by simp [TraceEntry.frames, rowSource]⟩
  | sentOk _ a f _ ha hf | sentFail _ a f _ ha hf =>
    exact ⟨[_], rfl, by simpa [TraceEntry.frames] using ⟨a, ha, hf⟩⟩
  | received | decodedFree => exact ⟨[_], applyDecode_trace _ _ s, by simp [frames_emissions]⟩
  | answered => exact ⟨[], by simp⟩

/-- The connection opened in `s` has latched the address `a`, and every frame since then carries it. -/
def FramesCarry (s : State) (a : Byte) (t : State) : Prop :=
  t.addr = some a ∧ ∃ new, t.trace = s.trace ++ new ∧ ∀ e ∈ new, ∀ f ∈ e.frames, f[1]? = some a

theorem framesCarry_openConnection (s : State) (a : Byte) : FramesCarry s a (openConnection a s) :=
  ⟨rfl, [_], rfl, by simp [TraceEntry.frames]⟩

theorem FramesCarry.after_row (h : FramesCarry s a t) (hconnect : i ≠ .connect) (hexec : exec i t = .next u) :
    FramesCarry s a u := by
  obtain ⟨haddr, new, htrace, hnew⟩ := h
  obtain ⟨added, hadded, hframes⟩ := (Machine.exec_next hexec).extends_trace
  refine ⟨(exec_keeps_addr hconnect hexec).trans haddr, new ++ added, ?_, ?_⟩
  · rw [hadded, htrace, List.append_assoc]
  · refine List.forall_mem_append.mpr ⟨hnew, fun e he f hf => ?_⟩
    obtain ⟨b, hb, hcommand⟩ := (hframes e he).2 f hf
    obtain rfl : b = a := Option.some.inj (hb.symm.trans haddr)
    exact hcommand.address

/-- A run that begins with a CONNECT whose open succeeds goes on from the new connection. -/
theorem runRows_connect_next {d : Draws} {rows : List (Instr × Draws)} (hl : s.link = .closed)
    (ha : legalAddress s.cfg.address = some a) (hd : d.openOk = true)
    (h : runRows ((.connect, d) :: rows) s = .next t) :
    runRows rows (openConnection a (s.setDraws d)) = .next t := by
  obtain ⟨u, hexec, hrest⟩ := runRows_cons_next h
  rw [exec_connect_legal (s := s.setDraws d) hl ha, State.setDraws_draws, if_pos hd] at hexec
  obtain rfl := Host.Outcome.next.inj hexec
  exact hrest

/-- Settles O56: `FramesCarry` holds in the new connection, and every row but CONNECT keeps it. -/
theorem everyFrameCarriesLatchedAddress : Obligations.EveryFrameCarriesLatchedAddress := by
  intro s t d v rows hl hcfg hlo hhi hd hrows h
  have hrun := runRows_connect_next hl (hcfg ▸ legalAddress_integer hlo hhi) hd h
  obtain ⟨haddr, new, htrace, hnew⟩ : FramesCarry (s.setDraws d) (BitVec.ofInt 8 v) t :=
    runRows_keeps (fun _ _ hu => hu) (fun _ _ _ hi hexec hu => hu.after_row hi hexec) hrows hrun
      (framesCarry_openConnection _ _)
  rw [htrace, State.setDraws_trace, List.drop_left]
  exact ⟨haddr, hnew⟩

/-! The frames of the TICKs alone. -/

/-- The frames of `m` TICKs handled on an open link, the first of them in the polling state `p`. -/
def pollFrames (T : CrcTable) (a : Byte) (p : Phase) : Nat → List (List Byte)
  | 0 => []
  | m + 1 => cmd4Bytes T a (pollOpcode p) :: List.replicate m (cmd4Bytes T a (pollOpcode .steadyPolling))

theorem pollFrames_steadyPolling (T : CrcTable) (a : Byte) (m : Nat) :
    pollFrames T a .steadyPolling m = List.replicate m (cmd4Bytes T a (pollOpcode .steadyPolling)) := by
  cases m <;> rfl

/-- One TICK, and then `m` more in SteadyPolling. -/
theorem pollFrames_succ (T : CrcTable) (a : Byte) (p : Phase) (m : Nat) :
    pollFrames T a p (m + 1) = cmd4Bytes T a (pollOpcode p) :: pollFrames T a .steadyPolling m := by
  rw [pollFrames_steadyPolling]
  rfl

theorem tickFrames_append (xs ys : List TraceEntry) : tickFrames (xs ++ ys) = tickFrames xs ++ tickFrames ys := by
  simp [tickFrames]

theorem tickFrames_of_source_eq {e : TraceEntry} (h : e.source = .event 0x02) : tickFrames [e] = e.frames := by
  simp [tickFrames, h]

theorem tickFrames_of_source_ne {es : List TraceEntry} (h : ∀ e ∈ es, e.source ≠ .event 0x02) : tickFrames es = [] := by
  simpa [tickFrames] using fun e he hs => absurd hs (h e he)

/-- TICK is the one row whose entries name TICK. -/
theorem rowSource_ne_of_ne_tick (h : i ≠ .tick) : rowSource i ≠ .event 0x02 := by
  cases i with
  | tick => exact absurd rfl h
  | _ => simp [rowSource]

theorem exec_keeps_crcTable (h : exec i s = .next t) : t.crcTable = s.crcTable :=
  (exec_next h).keeps_table_cfg_marks.1

/-- A link that is open after a row was open before it, unless the row is CONNECT. -/
theorem link_opened_before (hconnect : i ≠ .connect) (h : exec i s = .next t) (ht : t.link = .opened) :
    s.link = .opened := by
  cases hs : s.link with
  | closed => exact absurd ((exec_next h).opens_link hs ht).1 hconnect
  | opened => rfl

/-- Of `k` TICKs handled between `s` and `t`, those on the open link have emitted the frames that polling from `s.phase`
asks for; while the link is open in `t`, they are all `k`. -/
def Polls (a : Byte) (k : Nat) (s t : State) : Prop :=
  ∃ m ≤ k, ∃ new, t.trace = s.trace ++ new ∧ tickFrames new = pollFrames s.crcTable a s.phase m ∧
    (t.link = .opened → s.link = .opened ∧ m = k)

theorem polls_refl (a : Byte) (s : State) : Polls a 0 s s :=
  ⟨0, le_rfl, [], (List.append_nil _).symm, rfl, fun hl => ⟨hl, rfl⟩⟩

/-- A first row that is neither CONNECT nor TICK adds no frame of a TICK. -/
theorem Polls.other_first {k : Nat} (h : Polls a k u t) (hconnect : i ≠ .connect) (htick : i ≠ .tick)
    (hexec : exec i s = .next u) : Polls a k s t := by
  obtain ⟨m, hm, new, htrace, hframes, hopen⟩ := h
  obtain ⟨added, hadded, hsource⟩ := (exec_next hexec).extends_trace
  have hnone : tickFrames added = [] :=
    tickFrames_of_source_ne fun e he => (hsource e he).1 ▸ rowSource_ne_of_ne_tick htick
  refine ⟨m, hm, added ++ new, ?_, ?_, fun hl => ⟨link_opened_before hconnect hexec (hopen hl).1, (hopen hl).2⟩⟩
  · rw [htrace, hadded, List.append_assoc]
  · rw [tickFrames_append, hnone, hframes, exec_keeps_crcTable hexec, exec_keeps_phase hconnect htick hexec,
      List.nil_append]

/-- A first TICK on the open link adds its frame, and the polling goes on in SteadyPolling. -/
theorem Polls.tick_first_opened {k : Nat} (h : Polls a k u t) (hl : s.link = .opened) (ha : s.addr = some a)
    (hexec : exec .tick s = .next u) : Polls a (k + 1) s t := by
  obtain ⟨m, hm, new, htrace, hframes, hopen⟩ := h
  obtain ⟨u', e, hexec', hadded, hsource, hframe, hphase⟩ := (completesSending_tick hl ha).leaves_entry
  obtain rfl : u' = u := Host.Outcome.next.inj (hexec'.symm.trans hexec)
  refine ⟨m + 1, by omega, e :: new, ?_, ?_, fun ht => ⟨hl, congrArg (· + 1) (hopen ht).2⟩⟩
  · rw [htrace, hadded, State.setPhase_trace, List.append_assoc, List.singleton_append]
  · rw [← List.singleton_append, tickFrames_append, tickFrames_of_source_eq hsource, hframe, hframes, hphase,
      exec_keeps_crcTable hexec, pollFrames_succ]
    rfl

/-- A first TICK on the closed link adds no frame, and the link is then closed to the end. -/
theorem Polls.tick_first_closed {k : Nat} (h : Polls a k u t) (hl : s.link = .closed)
    (hexec : exec .tick s = .next u) : Polls a (k + 1) s t := by
  obtain ⟨m, hm, new, htrace, hframes, hopen⟩ := h
  obtain rfl : s.record (.event 0x02) [] (.ignoredLinkClosed 0x02) = u :=
    Host.Outcome.next.inj ((execTick_closed hl).symm.trans hexec)
  refine ⟨m, by omega, ⟨.event 0x02, [], .ignoredLinkClosed 0x02⟩ :: new, ?_, hframes, fun ht => ?_⟩
  · rw [htrace, State.record_trace, List.append_assoc, List.singleton_append]
  · have hopened : s.link = .opened := (hopen ht).1
    rw [hl] at hopened
    cases hopened

theorem Polls.tick_first {k : Nat} (h : Polls a k u t) (ha : s.addr = some a) (hexec : exec .tick s = .next u) :
    Polls a (k + 1) s t := by
  cases hl : s.link with
  | closed => exact h.tick_first_closed hl hexec
  | opened => exact h.tick_first_opened hl ha hexec

/-- The number of TICKs among the rows. -/
def tickCount (rows : List (Instr × Draws)) : Nat :=
  (rows.filter fun p => p.1 == .tick).length

theorem tickCount_cons_tick (d : Draws) (rows : List (Instr × Draws)) :
    tickCount ((.tick, d) :: rows) = tickCount rows + 1 := by
  simp [tickCount]

theorem tickCount_cons_other (hi : i ≠ .tick) (d : Draws) (rows : List (Instr × Draws)) :
    tickCount ((i, d) :: rows) = tickCount rows := by
  simp [tickCount, hi]

/-- A run without CONNECT, row by row: new draws change nothing that `Polls` speaks of. -/
theorem polls_runRows {rows : List (Instr × Draws)} (ha : s.addr = some a) (hrows : ∀ p ∈ rows, p.1 ≠ .connect)
    (h : runRows rows s = .next t) : Polls a (tickCount rows) s t := by
  induction rows generalizing s with
  | nil =>
    obtain rfl : s = t := Host.Outcome.next.inj h
    exact polls_refl a s
  | cons p rows ih =>
    obtain ⟨i, d⟩ := p
    obtain ⟨u, hexec, hrest⟩ := runRows_cons_next h
    obtain ⟨hconnect, hothers⟩ := List.forall_mem_cons.mp hrows
    have hpolls : Polls a (tickCount rows) u t := ih ((exec_keeps_addr hconnect hexec).trans ha) hothers hrest
    by_cases hi : i = .tick
    · subst hi
      rw [tickCount_cons_tick]
      exact hpolls.tick_first (s := s.setDraws d) ha hexec
    · rw [tickCount_cons_other hi]
      exact hpolls.other_first (s := s.setDraws d) hconnect hi hexec

/-- The frames of polling a new connection, as 43_polling_fsm R197 lists them. -/
theorem pollFrames_awaitingFirstPoll (T : CrcTable) (a : Byte) (m : Nat) :
    pollFrames T a .awaitingFirstPoll m =
      if m = 0 then [] else cmd4Bytes T a 0x10 :: List.replicate (m - 1) (cmd4Bytes T a 0x06) := by
  cases m <;> rfl

/-- Settles O55: the connection begins in AwaitingFirstPoll, and its own entry holds no frame of a TICK. -/
theorem firstTickReadsInfoLaterTicksReadLevel : Obligations.FirstTickReadsInfoLaterTicksReadLevel := by
  intro s t d a rows hl ha hd hrows h
  have hrun := runRows_connect_next hl ha hd h
  obtain ⟨m, hm, new, htrace, hframes, hopen⟩ := polls_runRows (openConnection_addr a _) hrows hrun
  refine ⟨m, hm, ?_, fun ht => (hopen ht).2⟩
  have hsince : t.trace.drop s.trace.length = ⟨.event 0x01, [], .ok⟩ :: new := by
    rw [htrace]
    simp [openConnection]
  rw [hsince]
  exact hframes.trans (pollFrames_awaitingFirstPoll s.crcTable a m)

end Sys2Proof.Machine

/-! ### Command and response rows on a closed link (60_exceptions R227, 70_reset_and_hazards R254) -/

namespace Sys2Proof.Machine

/-- Settles O29: a command row is a `sendIfOpen` and a response row a `receive`, which a closed link both ignores. -/
theorem closedLinkIgnoresFrameRows : Obligations.ClosedLinkIgnoresFrameRows := by
  intro s hl
  have command {i : Instr} {src : Source} {tag op : Byte} {param : Option Byte}
      (hexec : exec i s = sendIfOpen src tag op param s) :
      completesIn i s (s.record src [] (.ignoredLinkClosed tag)) :=
    completesIn_of_ignoreClosed (hexec.trans (sendIfOpen_closed src tag op param hl))
  have response {i : Instr} {bytes : List Byte} (hexec : exec i s = receive bytes s) :
      completesIn i s (s.record (.event 0x07) [] (.ignoredLinkClosed 0x07)) :=
    completesIn_of_ignoreClosed (hexec.trans (receive_closed bytes hl))
  exact ⟨command rfl, command rfl, command rfl, fun _ => command rfl, fun _ => command rfl, fun _ => command rfl,
    fun _ => response rfl, fun _ => response rfl, fun _ => response rfl⟩

end Sys2Proof.Machine

/-! ### How an event ends (60_exceptions R220, R221, R226) -/

namespace Sys2Proof.Machine

variable {s t : State} {i : Instr}

/-- DECODE emits as many records to the sink as its status says. -/
theorem sinks_emissions (o : DecodeOutcome) : (o.emissions.filter Emission.isSink).length = o.status.sinkCount := by
  cases o <;> rfl

/-- No outcome of DECODE is a fault of the transport. -/
theorem DecodeOutcome.classOf_status_ne (o : DecodeOutcome) : o.status.classOf ≠ .transportFault := by
  cases o <;> exact nofun

/-- An event that completes adds one entry, which accounts for its SINK emissions and for a link a transport fault
leaves closed. -/
theorem RowEffect.event_entry (h : RowEffect s i t) (hi : isEvent i = true) :
    ∃ e, t.trace = s.trace ++ [e] ∧ (e.outputs.filter Emission.isSink).length = e.status.sinkCount ∧
      (e.status.classOf = .transportFault → t.link = .closed) := by
  cases h with
  | ignored | sentOk | connected | closed => exact ⟨_, rfl, rfl, nofun⟩
  | sentFail => exact ⟨_, rfl, rfl, fun _ => rfl⟩
  | openFailed hl => exact ⟨_, rfl, rfl, fun _ => hl⟩
  | received =>
    exact ⟨_, applyDecode_trace _ _ s, sinks_emissions _, fun hfault => absurd hfault (DecodeOutcome.classOf_status_ne _)⟩
  | decodedFree => cases hi
  | answered _ _ hfree => simp [hi] at hfree

/-- Settles O51. -/
theorem everyEventEndsWithOneStatus : Obligations.EveryEventEndsWithOneStatus :=
  fun _ _ _ hi h => (exec_next h).event_entry hi

end Sys2Proof.Machine

/-! ### No event faults (60_exceptions R229, 10_state R25)

The only fault of an event is a send with no latched address, which an open link always has. -/

namespace Sys2Proof.Machine

variable {s : State}

theorem sendCommand_ne_fault (src : Source) (op : Byte) (param : Option Byte) (after : State → State)
    (ha : s.addr.isSome) (r : Fault) : sendCommand src op param after s ≠ .fault r := by
  obtain ⟨a, ha⟩ := Option.isSome_iff_exists.mp ha
  simp [sendCommand_some src op param after ha]

section OpenHasAddress

variable (haddr : s.link = .opened → s.addr.isSome) (r : Fault)

include haddr

theorem sendIfOpen_ne_fault (src : Source) (tag op : Byte) (param : Option Byte) :
    sendIfOpen src tag op param s ≠ .fault r := by
  cases hl : s.link with
  | closed => simp [sendIfOpen_closed, ignoreClosed_next, hl]
  | opened =>
    rw [sendIfOpen_opened src tag op param hl]
    exact sendCommand_ne_fault src op param id (haddr hl) r

theorem userWrite_ne_fault (tag op : Byte) (hi : Int) (v : HostValue) : userWrite tag op hi v s ≠ .fault r := by
  cases hl : s.link with
  | closed => simp [userWrite_closed, ignoreClosed_next, hl]
  | opened =>
    cases v with
    | notInteger => simp [userWrite_opened_notInteger, hl]
    | integer n =>
      rw [userWrite_opened_integer tag op hi n hl]
      exact sendCommand_ne_fault _ op _ id (haddr hl) r

theorem execTick_ne_fault : execTick s ≠ .fault r := by
  cases hl : s.link with
  | closed => simp [execTick_closed, ignoreClosed_next, hl]
  | opened =>
    obtain ⟨op, after, htick⟩ := execTick_opened hl
    rw [htick]
    exact sendCommand_ne_fault _ op none after (haddr hl) r

end OpenHasAddress

/-- CONNECT opens, fails to open, or is refused. -/
theorem exec_connect_ne_fault (s : State) (r : Fault) : exec .connect s ≠ .fault r := by
  cases hl : s.link with
  | opened => simp [exec_connect_opened, hl]
  | closed =>
    cases ha : legalAddress s.cfg.address with
    | none => simp [exec_connect_illegal, hl, ha]
    | some a => simp [exec_connect_legal hl ha]

/-- An arriving frame is ignored or decoded. -/
theorem receive_ne_fault (f : List Byte) (s : State) (r : Fault) : receive f s ≠ .fault r := by
  cases hl : s.link with
  | closed => simp [receive_closed, ignoreClosed_next, hl]
  | opened => simp [receive_opened, hl]

/-- Settles O52: by the invariant an event that sends has its latched address; the others send nothing. -/
theorem eventsNeverFault : Obligations.EventsNeverFault := by
  intro i s r inv hi
  have haddr := inv.open_addr
  cases i with
  | connect => exact exec_connect_ne_fault s r
  | tick => exact execTick_ne_fault haddr r
  | userPeriodic => exact sendIfOpen_ne_fault haddr r (.event 0x03) 0x03 0x07 none
  | userMode v => exact userWrite_ne_fault haddr r 0x04 0x17 2 v
  | userInterval v => exact userWrite_ne_fault haddr r 0x05 0x13 255 v
  | userFilter v => exact userWrite_ne_fault haddr r 0x06 0x0E 20 v
  | rx f => exact receive_ne_fault f s r
  | close => exact nofun
  | _ => cases hi

end Sys2Proof.Machine

/-! ### A step that handles no row (00_scope R3, 43_polling_fsm R180) -/

namespace Sys2Proof.Machine

/-- The engine acts on deliveries only. -/
theorem step_of_inbox_nil {s : State} (hinbox : s.inbox = []) : step s = .next s := by
  have nothing : takeDelivery s = none := by simp [takeDelivery, hinbox]
  simp [step, nothing]

/-- The third branch of `step`, beside `step_of_inbox_nil` and `step_of_decode`: the refusal keeps the decoder's reason. -/
theorem step_of_decode_error {s : State} {d : Delivery} {rest : List Delivery} {e : DecodeError}
    (hinbox : s.inbox = d :: rest) (hdecode : decode d.packet = .error e) :
    step s = .refused (.undecodable e) := by
  have taken : takeDelivery s = some (d.packet, (s.setInbox rest).setDraws d.draws) := by
    simp [takeDelivery, hinbox]
  simp [step, taken, hdecode]

/-- Settles O5: one clause for each branch of `step` that reaches no `exec`. -/
theorem stepWithoutRow : Obligations.StepWithoutRow :=
  ⟨fun _ => step_of_inbox_nil, fun _ _ _ _ => step_of_decode_error⟩

end Sys2Proof.Machine
